-- ==== Sys2Proof/Word.lean ====
section
/-! DEFINITION. The two word types of the hardware: a register byte (00_scope.md R15) and the transaction word of
30_encoding.md R80. -/

namespace Sys2Proof

/-- `Byte` of 00_scope.md R15: eight bits, unsigned. -/
abbrev Byte := BitVec 8

/-- The transaction word `TW` of 30_encoding.md R80: twenty bits, one length. -/
abbrev TWord := BitVec 20

end Sys2Proof
end

