-- ==== Sys2Proof/Syntax.lean ====
section
/-! DEFINITION. The instructions: one constructor per row of spec/opcode_table.json (30_encoding.md R81, R84). A format X
row of one register has its index in its name; an NVRAM row carries the index as an operand (Sys2Proof/WellFormed.lean
holds it to the row's block). `v` is the `data` byte of a write. -/

namespace Sys2Proof

/-- An operation after index resolution and decoding (R82, R83). -/
inductive Instr where
  /-- `IDX_WR`, R120. -/
  | idxWr (v : Byte)
  /-- `IDX_RD`, R121. -/
  | idxRd
  /-- `DAT_WR` at index 0x00 (SECONDS), R124. -/
  | datWrSeconds (v : Byte)
  /-- `DAT_WR` at index 0x01 (SECONDS_ALARM), R125. -/
  | datWrSecondsAlarm (v : Byte)
  /-- `DAT_WR` at index 0x02 (MINUTES), R124. -/
  | datWrMinutes (v : Byte)
  /-- `DAT_WR` at index 0x03 (MINUTES_ALARM), R125. -/
  | datWrMinutesAlarm (v : Byte)
  /-- `DAT_WR` at index 0x04 (HOURS), R124. -/
  | datWrHours (v : Byte)
  /-- `DAT_WR` at index 0x05 (HOURS_ALARM), R125. -/
  | datWrHoursAlarm (v : Byte)
  /-- `DAT_WR` at index 0x06 (DAY_OF_WEEK), R124. -/
  | datWrDayOfWeek (v : Byte)
  /-- `DAT_WR` at index 0x07 (DAY_OF_MONTH), R124. -/
  | datWrDayOfMonth (v : Byte)
  /-- `DAT_WR` at index 0x08 (MONTH), R124. -/
  | datWrMonth (v : Byte)
  /-- `DAT_WR` at index 0x09 (YEAR), R124. -/
  | datWrYear (v : Byte)
  /-- `DAT_WR` at index 0x0A (REG_A), R180. -/
  | datWrRegA (v : Byte)
  /-- `DAT_WR` at index 0x0B (REG_B), R128. -/
  | datWrRegB (v : Byte)
  /-- `DAT_WR` at index 0x0C (REG_C), R127. -/
  | datWrRegC (v : Byte)
  /-- `DAT_WR` at index 0x0D (REG_D), R127. -/
  | datWrRegD (v : Byte)
  /-- `DAT_WR` at an NVRAM index of 0x0E to 0x0F, R126. -/
  | datWrNvram0E (idx v : Byte)
  /-- `DAT_WR` at an NVRAM index of 0x10 to 0x1F, R126. -/
  | datWrNvram10 (idx v : Byte)
  /-- `DAT_WR` at an NVRAM index of 0x20 to 0x3F, R126. -/
  | datWrNvram20 (idx v : Byte)
  /-- `DAT_WR` at an NVRAM index of 0x40 to 0x7F, R126. -/
  | datWrNvram40 (idx v : Byte)
  /-- `DAT_WR` at an NVRAM index of 0x80 to 0xFF, R126. -/
  | datWrNvram80 (idx v : Byte)
  /-- `DAT_RD` at index 0x00 (SECONDS), R129. -/
  | datRdSeconds
  /-- `DAT_RD` at index 0x01 (SECONDS_ALARM), R129. -/
  | datRdSecondsAlarm
  /-- `DAT_RD` at index 0x02 (MINUTES), R129. -/
  | datRdMinutes
  /-- `DAT_RD` at index 0x03 (MINUTES_ALARM), R129. -/
  | datRdMinutesAlarm
  /-- `DAT_RD` at index 0x04 (HOURS), R129. -/
  | datRdHours
  /-- `DAT_RD` at index 0x05 (HOURS_ALARM), R129. -/
  | datRdHoursAlarm
  /-- `DAT_RD` at index 0x06 (DAY_OF_WEEK), R129. -/
  | datRdDayOfWeek
  /-- `DAT_RD` at index 0x07 (DAY_OF_MONTH), R129. -/
  | datRdDayOfMonth
  /-- `DAT_RD` at index 0x08 (MONTH), R129. -/
  | datRdMonth
  /-- `DAT_RD` at index 0x09 (YEAR), R129. -/
  | datRdYear
  /-- `DAT_RD` at index 0x0A (REG_A), R130. -/
  | datRdRegA
  /-- `DAT_RD` at index 0x0B (REG_B), R131. -/
  | datRdRegB
  /-- `DAT_RD` at index 0x0C (REG_C), R204. -/
  | datRdRegC
  /-- `DAT_RD` at index 0x0D (REG_D), R132. -/
  | datRdRegD
  /-- `DAT_RD` at an NVRAM index of 0x0E to 0x0F, R129. -/
  | datRdNvram0E (idx : Byte)
  /-- `DAT_RD` at an NVRAM index of 0x10 to 0x1F, R129. -/
  | datRdNvram10 (idx : Byte)
  /-- `DAT_RD` at an NVRAM index of 0x20 to 0x3F, R129. -/
  | datRdNvram20 (idx : Byte)
  /-- `DAT_RD` at an NVRAM index of 0x40 to 0x7F, R129. -/
  | datRdNvram40 (idx : Byte)
  /-- `DAT_RD` at an NVRAM index of 0x80 to 0xFF, R129. -/
  | datRdNvram80 (idx : Byte)
  /-- `SET_BYTE` at index 0x00 (SECONDS), R124. -/
  | setByteSeconds (v : Byte)
  /-- `SET_BYTE` at index 0x01 (SECONDS_ALARM), R125. -/
  | setByteSecondsAlarm (v : Byte)
  /-- `SET_BYTE` at index 0x02 (MINUTES), R124. -/
  | setByteMinutes (v : Byte)
  /-- `SET_BYTE` at index 0x03 (MINUTES_ALARM), R125. -/
  | setByteMinutesAlarm (v : Byte)
  /-- `SET_BYTE` at index 0x04 (HOURS), R124. -/
  | setByteHours (v : Byte)
  /-- `SET_BYTE` at index 0x05 (HOURS_ALARM), R125. -/
  | setByteHoursAlarm (v : Byte)
  /-- `SET_BYTE` at index 0x06 (DAY_OF_WEEK), R124. -/
  | setByteDayOfWeek (v : Byte)
  /-- `SET_BYTE` at index 0x07 (DAY_OF_MONTH), R124. -/
  | setByteDayOfMonth (v : Byte)
  /-- `SET_BYTE` at index 0x08 (MONTH), R124. -/
  | setByteMonth (v : Byte)
  /-- `SET_BYTE` at index 0x09 (YEAR), R124. -/
  | setByteYear (v : Byte)
  /-- `SET_BYTE` at index 0x0A (REG_A), R180. -/
  | setByteRegA (v : Byte)
  /-- `SET_BYTE` at index 0x0B (REG_B), R128. -/
  | setByteRegB (v : Byte)
  /-- `SET_BYTE` at index 0x0C (REG_C), R127. -/
  | setByteRegC (v : Byte)
  /-- `SET_BYTE` at index 0x0D (REG_D), R127. -/
  | setByteRegD (v : Byte)
  /-- `SET_BYTE` at an NVRAM index of 0x0E to 0x0F, R126. -/
  | setByteNvram0E (idx v : Byte)
  /-- `SET_BYTE` at an NVRAM index of 0x10 to 0x1F, R126. -/
  | setByteNvram10 (idx v : Byte)
  /-- `SET_BYTE` at an NVRAM index of 0x20 to 0x3F, R126. -/
  | setByteNvram20 (idx v : Byte)
  /-- `SET_BYTE` at an NVRAM index of 0x40 to 0x7F, R126. -/
  | setByteNvram40 (idx v : Byte)
  /-- `SET_BYTE` at an NVRAM index of 0x80 to 0xFF, R126. -/
  | setByteNvram80 (idx v : Byte)
  /-- `GET_BYTE` at index 0x00 (SECONDS), R129. -/
  | getByteSeconds
  /-- `GET_BYTE` at index 0x01 (SECONDS_ALARM), R129. -/
  | getByteSecondsAlarm
  /-- `GET_BYTE` at index 0x02 (MINUTES), R129. -/
  | getByteMinutes
  /-- `GET_BYTE` at index 0x03 (MINUTES_ALARM), R129. -/
  | getByteMinutesAlarm
  /-- `GET_BYTE` at index 0x04 (HOURS), R129. -/
  | getByteHours
  /-- `GET_BYTE` at index 0x05 (HOURS_ALARM), R129. -/
  | getByteHoursAlarm
  /-- `GET_BYTE` at index 0x06 (DAY_OF_WEEK), R129. -/
  | getByteDayOfWeek
  /-- `GET_BYTE` at index 0x07 (DAY_OF_MONTH), R129. -/
  | getByteDayOfMonth
  /-- `GET_BYTE` at index 0x08 (MONTH), R129. -/
  | getByteMonth
  /-- `GET_BYTE` at index 0x09 (YEAR), R129. -/
  | getByteYear
  /-- `GET_BYTE` at index 0x0A (REG_A), R130. -/
  | getByteRegA
  /-- `GET_BYTE` at index 0x0B (REG_B), R131. -/
  | getByteRegB
  /-- `GET_BYTE` at index 0x0C (REG_C), R203. -/
  | getByteRegC
  /-- `GET_BYTE` at index 0x0D (REG_D), R132. -/
  | getByteRegD
  /-- `GET_BYTE` at an NVRAM index of 0x0E to 0x0F, R129. -/
  | getByteNvram0E (idx : Byte)
  /-- `GET_BYTE` at an NVRAM index of 0x10 to 0x1F, R129. -/
  | getByteNvram10 (idx : Byte)
  /-- `GET_BYTE` at an NVRAM index of 0x20 to 0x3F, R129. -/
  | getByteNvram20 (idx : Byte)
  /-- `GET_BYTE` at an NVRAM index of 0x40 to 0x7F, R129. -/
  | getByteNvram40 (idx : Byte)
  /-- `GET_BYTE` at an NVRAM index of 0x80 to 0xFF, R129. -/
  | getByteNvram80 (idx : Byte)
  /-- `RST_REINJ`, R225. -/
  | rstReinj
  /-- `CLK_RESET`, R260. -/
  | clkReset
  /-- `SUSPEND`, R261. -/
  | suspend
  /-- `RESUME`, R262. -/
  | resume
  /-- `EV_PERIODIC`, R183. -/
  | evPeriodic
  /-- `EV_UPDATE`, R201. -/
  | evUpdate
  /-- `EV_REINJECT`, R224. -/
  | evReinject
  /-- `INIT`, R280. -/
  | init
  /-- `TEARDOWN`, R283. -/
  | teardown
deriving DecidableEq, Repr

end Sys2Proof
end

