-- ==== Sys2Proof/WellFormed.lean ====
section
/-! DEFINITION. Which terms of `Instr` stand for a transaction word: an NVRAM row's index lies in the row's block
(30_encoding.md R84); every `data` byte is legal (R103). -/

namespace Sys2Proof

/-- The index lies in the block `lo` to `hi`. -/
def inBlock (lo hi idx : Byte) : Bool := decide (lo ≤ idx) && decide (idx ≤ hi)

/-- A well-formed instruction. -/
def Instr.wellFormed : Instr → Bool
  | .idxWr _ => true
  | .idxRd => true
  | .datWrSeconds _ => true
  | .datWrSecondsAlarm _ => true
  | .datWrMinutes _ => true
  | .datWrMinutesAlarm _ => true
  | .datWrHours _ => true
  | .datWrHoursAlarm _ => true
  | .datWrDayOfWeek _ => true
  | .datWrDayOfMonth _ => true
  | .datWrMonth _ => true
  | .datWrYear _ => true
  | .datWrRegA _ => true
  | .datWrRegB _ => true
  | .datWrRegC _ => true
  | .datWrRegD _ => true
  | .datWrNvram0E idx _ => inBlock 0x0E 0x0F idx
  | .datWrNvram10 idx _ => inBlock 0x10 0x1F idx
  | .datWrNvram20 idx _ => inBlock 0x20 0x3F idx
  | .datWrNvram40 idx _ => inBlock 0x40 0x7F idx
  | .datWrNvram80 idx _ => inBlock 0x80 0xFF idx
  | .datRdSeconds => true
  | .datRdSecondsAlarm => true
  | .datRdMinutes => true
  | .datRdMinutesAlarm => true
  | .datRdHours => true
  | .datRdHoursAlarm => true
  | .datRdDayOfWeek => true
  | .datRdDayOfMonth => true
  | .datRdMonth => true
  | .datRdYear => true
  | .datRdRegA => true
  | .datRdRegB => true
  | .datRdRegC => true
  | .datRdRegD => true
  | .datRdNvram0E idx => inBlock 0x0E 0x0F idx
  | .datRdNvram10 idx => inBlock 0x10 0x1F idx
  | .datRdNvram20 idx => inBlock 0x20 0x3F idx
  | .datRdNvram40 idx => inBlock 0x40 0x7F idx
  | .datRdNvram80 idx => inBlock 0x80 0xFF idx
  | .setByteSeconds _ => true
  | .setByteSecondsAlarm _ => true
  | .setByteMinutes _ => true
  | .setByteMinutesAlarm _ => true
  | .setByteHours _ => true
  | .setByteHoursAlarm _ => true
  | .setByteDayOfWeek _ => true
  | .setByteDayOfMonth _ => true
  | .setByteMonth _ => true
  | .setByteYear _ => true
  | .setByteRegA _ => true
  | .setByteRegB _ => true
  | .setByteRegC _ => true
  | .setByteRegD _ => true
  | .setByteNvram0E idx _ => inBlock 0x0E 0x0F idx
  | .setByteNvram10 idx _ => inBlock 0x10 0x1F idx
  | .setByteNvram20 idx _ => inBlock 0x20 0x3F idx
  | .setByteNvram40 idx _ => inBlock 0x40 0x7F idx
  | .setByteNvram80 idx _ => inBlock 0x80 0xFF idx
  | .getByteSeconds => true
  | .getByteSecondsAlarm => true
  | .getByteMinutes => true
  | .getByteMinutesAlarm => true
  | .getByteHours => true
  | .getByteHoursAlarm => true
  | .getByteDayOfWeek => true
  | .getByteDayOfMonth => true
  | .getByteMonth => true
  | .getByteYear => true
  | .getByteRegA => true
  | .getByteRegB => true
  | .getByteRegC => true
  | .getByteRegD => true
  | .getByteNvram0E idx => inBlock 0x0E 0x0F idx
  | .getByteNvram10 idx => inBlock 0x10 0x1F idx
  | .getByteNvram20 idx => inBlock 0x20 0x3F idx
  | .getByteNvram40 idx => inBlock 0x40 0x7F idx
  | .getByteNvram80 idx => inBlock 0x80 0xFF idx
  | .rstReinj => true
  | .clkReset => true
  | .suspend => true
  | .resume => true
  | .evPeriodic => true
  | .evUpdate => true
  | .evReinject => true
  | .init => true
  | .teardown => true

end Sys2Proof
end

