-- ==== Sys2Proof/Decode.lean ====
section
/-! DEFINITION. The transaction word's fields (30_encoding.md R80), the decoder (R81 to R84, R102), total on every word
and rejecting by name, and after it the encoder and the rows of spec/opcode_table.json as masks and patterns. -/

namespace Sys2Proof

/-! Fields, R80 -/

/-- `TW[19:16]`, the operation code. -/
def opField (w : TWord) : BitVec 4 := w.extractLsb' 16 4
/-- `TW[15:8]`, the register index. -/
def idxField (w : TWord) : Byte := w.extractLsb' 8 8
/-- `TW[7:0]`, the data byte. -/
def dataField (w : TWord) : Byte := w.extractLsb' 0 8
/-- The word with these three fields. -/
def mkWord (op : BitVec 4) (idx data : Byte) : TWord := op ++ idx ++ data

/-- Why a word is not an operation, R102; each is the refusal ReservedWord. -/
inductive DecodeError where
  /-- `op` is 0xF. -/
  | reservedOp
  /-- `idx` is not zero in a word of format P or N. -/
  | idxNotZero
  /-- `data` is not zero in a word of format N or of a format X read. -/
  | dataNotZero
deriving DecidableEq, Repr

/-- The DAT_WR row of an index: one row for each of 0x00 to 0x0D, five NVRAM blocks, R84. -/
def decodeDatWr (idx : Byte) (v : Byte) : Instr :=
  match idx.toNat with
  | 0 => .datWrSeconds v
  | 1 => .datWrSecondsAlarm v
  | 2 => .datWrMinutes v
  | 3 => .datWrMinutesAlarm v
  | 4 => .datWrHours v
  | 5 => .datWrHoursAlarm v
  | 6 => .datWrDayOfWeek v
  | 7 => .datWrDayOfMonth v
  | 8 => .datWrMonth v
  | 9 => .datWrYear v
  | 10 => .datWrRegA v
  | 11 => .datWrRegB v
  | 12 => .datWrRegC v
  | 13 => .datWrRegD v
  | n =>
    if n < 0x10 then .datWrNvram0E idx v
    else if n < 0x20 then .datWrNvram10 idx v
    else if n < 0x40 then .datWrNvram20 idx v
    else if n < 0x80 then .datWrNvram40 idx v
    else .datWrNvram80 idx v

/-- The DAT_RD row of an index: one row for each of 0x00 to 0x0D, five NVRAM blocks, R84. -/
def decodeDatRd (idx : Byte) : Instr :=
  match idx.toNat with
  | 0 => .datRdSeconds
  | 1 => .datRdSecondsAlarm
  | 2 => .datRdMinutes
  | 3 => .datRdMinutesAlarm
  | 4 => .datRdHours
  | 5 => .datRdHoursAlarm
  | 6 => .datRdDayOfWeek
  | 7 => .datRdDayOfMonth
  | 8 => .datRdMonth
  | 9 => .datRdYear
  | 10 => .datRdRegA
  | 11 => .datRdRegB
  | 12 => .datRdRegC
  | 13 => .datRdRegD
  | n =>
    if n < 0x10 then .datRdNvram0E idx
    else if n < 0x20 then .datRdNvram10 idx
    else if n < 0x40 then .datRdNvram20 idx
    else if n < 0x80 then .datRdNvram40 idx
    else .datRdNvram80 idx

/-- The SET_BYTE row of an index: one row for each of 0x00 to 0x0D, five NVRAM blocks, R84. -/
def decodeSetByte (idx : Byte) (v : Byte) : Instr :=
  match idx.toNat with
  | 0 => .setByteSeconds v
  | 1 => .setByteSecondsAlarm v
  | 2 => .setByteMinutes v
  | 3 => .setByteMinutesAlarm v
  | 4 => .setByteHours v
  | 5 => .setByteHoursAlarm v
  | 6 => .setByteDayOfWeek v
  | 7 => .setByteDayOfMonth v
  | 8 => .setByteMonth v
  | 9 => .setByteYear v
  | 10 => .setByteRegA v
  | 11 => .setByteRegB v
  | 12 => .setByteRegC v
  | 13 => .setByteRegD v
  | n =>
    if n < 0x10 then .setByteNvram0E idx v
    else if n < 0x20 then .setByteNvram10 idx v
    else if n < 0x40 then .setByteNvram20 idx v
    else if n < 0x80 then .setByteNvram40 idx v
    else .setByteNvram80 idx v

/-- The GET_BYTE row of an index: one row for each of 0x00 to 0x0D, five NVRAM blocks, R84. -/
def decodeGetByte (idx : Byte) : Instr :=
  match idx.toNat with
  | 0 => .getByteSeconds
  | 1 => .getByteSecondsAlarm
  | 2 => .getByteMinutes
  | 3 => .getByteMinutesAlarm
  | 4 => .getByteHours
  | 5 => .getByteHoursAlarm
  | 6 => .getByteDayOfWeek
  | 7 => .getByteDayOfMonth
  | 8 => .getByteMonth
  | 9 => .getByteYear
  | 10 => .getByteRegA
  | 11 => .getByteRegB
  | 12 => .getByteRegC
  | 13 => .getByteRegD
  | n =>
    if n < 0x10 then .getByteNvram0E idx
    else if n < 0x20 then .getByteNvram10 idx
    else if n < 0x40 then .getByteNvram20 idx
    else if n < 0x80 then .getByteNvram40 idx
    else .getByteNvram80 idx

/-- Format P, R81: `idx` must be zero. -/
def formatP (idx : Byte) (i : Instr) : Except DecodeError Instr :=
  if idx = 0 then .ok i else .error .idxNotZero

/-- Format N, R81: `idx` and `data` must be zero. -/
def formatN (idx data : Byte) (i : Instr) : Except DecodeError Instr :=
  if idx = 0 then (if data = 0 then .ok i else .error .dataNotZero) else .error .idxNotZero

/-- A read of format X, R81: `data` must be zero. -/
def formatXRead (data : Byte) (i : Instr) : Except DecodeError Instr :=
  if data = 0 then .ok i else .error .dataNotZero

/-- The decoder: the operation of a transaction word, R81. -/
def decode (w : TWord) : Except DecodeError Instr :=
  let idx := idxField w
  let data := dataField w
  match (opField w).toNat with
  | 0x0 => formatP idx (.idxWr data)
  | 0x1 => formatN idx data .idxRd
  | 0x2 => .ok (decodeDatWr idx data)
  | 0x3 => formatXRead data (decodeDatRd idx)
  | 0x4 => .ok (decodeSetByte idx data)
  | 0x5 => formatXRead data (decodeGetByte idx)
  | 0x6 => formatN idx data .rstReinj
  | 0x7 => formatN idx data .clkReset
  | 0x8 => formatN idx data .suspend
  | 0x9 => formatN idx data .resume
  | 0xA => formatN idx data .evPeriodic
  | 0xB => formatN idx data .evUpdate
  | 0xC => formatN idx data .evReinject
  | 0xD => formatN idx data .init
  | 0xE => formatN idx data .teardown
  | _ => .error .reservedOp

/-- The instruction read from a table word of `nbits` bits, numbered as spec/opcode_table.json numbers them; a bit at or
above bit 20 must be zero, since a transaction word has one length (R80, R108; log 15). -/
def decodeTableWord (nbits w : Nat) : Option Instr :=
  let bits := w % 2 ^ nbits
  if bits < 2 ^ 20 then (decode (BitVec.ofNat 20 bits)).toOption else none

/-! The encoder, from the same table (R81, R84) -/

/-- The transaction word of an instruction. -/
def encode : Instr → TWord
  | .idxWr v => mkWord 0x0 0x00 v
  | .idxRd => mkWord 0x1 0x00 0x00
  | .datWrSeconds v => mkWord 0x2 0x00 v
  | .datWrSecondsAlarm v => mkWord 0x2 0x01 v
  | .datWrMinutes v => mkWord 0x2 0x02 v
  | .datWrMinutesAlarm v => mkWord 0x2 0x03 v
  | .datWrHours v => mkWord 0x2 0x04 v
  | .datWrHoursAlarm v => mkWord 0x2 0x05 v
  | .datWrDayOfWeek v => mkWord 0x2 0x06 v
  | .datWrDayOfMonth v => mkWord 0x2 0x07 v
  | .datWrMonth v => mkWord 0x2 0x08 v
  | .datWrYear v => mkWord 0x2 0x09 v
  | .datWrRegA v => mkWord 0x2 0x0A v
  | .datWrRegB v => mkWord 0x2 0x0B v
  | .datWrRegC v => mkWord 0x2 0x0C v
  | .datWrRegD v => mkWord 0x2 0x0D v
  | .datWrNvram0E idx v => mkWord 0x2 idx v
  | .datWrNvram10 idx v => mkWord 0x2 idx v
  | .datWrNvram20 idx v => mkWord 0x2 idx v
  | .datWrNvram40 idx v => mkWord 0x2 idx v
  | .datWrNvram80 idx v => mkWord 0x2 idx v
  | .datRdSeconds => mkWord 0x3 0x00 0x00
  | .datRdSecondsAlarm => mkWord 0x3 0x01 0x00
  | .datRdMinutes => mkWord 0x3 0x02 0x00
  | .datRdMinutesAlarm => mkWord 0x3 0x03 0x00
  | .datRdHours => mkWord 0x3 0x04 0x00
  | .datRdHoursAlarm => mkWord 0x3 0x05 0x00
  | .datRdDayOfWeek => mkWord 0x3 0x06 0x00
  | .datRdDayOfMonth => mkWord 0x3 0x07 0x00
  | .datRdMonth => mkWord 0x3 0x08 0x00
  | .datRdYear => mkWord 0x3 0x09 0x00
  | .datRdRegA => mkWord 0x3 0x0A 0x00
  | .datRdRegB => mkWord 0x3 0x0B 0x00
  | .datRdRegC => mkWord 0x3 0x0C 0x00
  | .datRdRegD => mkWord 0x3 0x0D 0x00
  | .datRdNvram0E idx => mkWord 0x3 idx 0x00
  | .datRdNvram10 idx => mkWord 0x3 idx 0x00
  | .datRdNvram20 idx => mkWord 0x3 idx 0x00
  | .datRdNvram40 idx => mkWord 0x3 idx 0x00
  | .datRdNvram80 idx => mkWord 0x3 idx 0x00
  | .setByteSeconds v => mkWord 0x4 0x00 v
  | .setByteSecondsAlarm v => mkWord 0x4 0x01 v
  | .setByteMinutes v => mkWord 0x4 0x02 v
  | .setByteMinutesAlarm v => mkWord 0x4 0x03 v
  | .setByteHours v => mkWord 0x4 0x04 v
  | .setByteHoursAlarm v => mkWord 0x4 0x05 v
  | .setByteDayOfWeek v => mkWord 0x4 0x06 v
  | .setByteDayOfMonth v => mkWord 0x4 0x07 v
  | .setByteMonth v => mkWord 0x4 0x08 v
  | .setByteYear v => mkWord 0x4 0x09 v
  | .setByteRegA v => mkWord 0x4 0x0A v
  | .setByteRegB v => mkWord 0x4 0x0B v
  | .setByteRegC v => mkWord 0x4 0x0C v
  | .setByteRegD v => mkWord 0x4 0x0D v
  | .setByteNvram0E idx v => mkWord 0x4 idx v
  | .setByteNvram10 idx v => mkWord 0x4 idx v
  | .setByteNvram20 idx v => mkWord 0x4 idx v
  | .setByteNvram40 idx v => mkWord 0x4 idx v
  | .setByteNvram80 idx v => mkWord 0x4 idx v
  | .getByteSeconds => mkWord 0x5 0x00 0x00
  | .getByteSecondsAlarm => mkWord 0x5 0x01 0x00
  | .getByteMinutes => mkWord 0x5 0x02 0x00
  | .getByteMinutesAlarm => mkWord 0x5 0x03 0x00
  | .getByteHours => mkWord 0x5 0x04 0x00
  | .getByteHoursAlarm => mkWord 0x5 0x05 0x00
  | .getByteDayOfWeek => mkWord 0x5 0x06 0x00
  | .getByteDayOfMonth => mkWord 0x5 0x07 0x00
  | .getByteMonth => mkWord 0x5 0x08 0x00
  | .getByteYear => mkWord 0x5 0x09 0x00
  | .getByteRegA => mkWord 0x5 0x0A 0x00
  | .getByteRegB => mkWord 0x5 0x0B 0x00
  | .getByteRegC => mkWord 0x5 0x0C 0x00
  | .getByteRegD => mkWord 0x5 0x0D 0x00
  | .getByteNvram0E idx => mkWord 0x5 idx 0x00
  | .getByteNvram10 idx => mkWord 0x5 idx 0x00
  | .getByteNvram20 idx => mkWord 0x5 idx 0x00
  | .getByteNvram40 idx => mkWord 0x5 idx 0x00
  | .getByteNvram80 idx => mkWord 0x5 idx 0x00
  | .rstReinj => mkWord 0x6 0x00 0x00
  | .clkReset => mkWord 0x7 0x00 0x00
  | .suspend => mkWord 0x8 0x00 0x00
  | .resume => mkWord 0x9 0x00 0x00
  | .evPeriodic => mkWord 0xA 0x00 0x00
  | .evUpdate => mkWord 0xB 0x00 0x00
  | .evReinject => mkWord 0xC 0x00 0x00
  | .init => mkWord 0xD 0x00 0x00
  | .teardown => mkWord 0xE 0x00 0x00

/-- One row of spec/opcode_table.json: a word belongs to it when the bits under `mask` are those of `pattern`. -/
structure Row where
  mask : TWord
  pattern : TWord
deriving DecidableEq, Repr

/-- The row of spec/opcode_table.json that an instruction stands for. -/
def Instr.row : Instr → Row
  | .idxWr _ => ⟨0xFFF00, 0x00000⟩
  | .idxRd => ⟨0xFFFFF, 0x10000⟩
  | .datWrSeconds _ => ⟨0xFFF00, 0x20000⟩
  | .datWrSecondsAlarm _ => ⟨0xFFF00, 0x20100⟩
  | .datWrMinutes _ => ⟨0xFFF00, 0x20200⟩
  | .datWrMinutesAlarm _ => ⟨0xFFF00, 0x20300⟩
  | .datWrHours _ => ⟨0xFFF00, 0x20400⟩
  | .datWrHoursAlarm _ => ⟨0xFFF00, 0x20500⟩
  | .datWrDayOfWeek _ => ⟨0xFFF00, 0x20600⟩
  | .datWrDayOfMonth _ => ⟨0xFFF00, 0x20700⟩
  | .datWrMonth _ => ⟨0xFFF00, 0x20800⟩
  | .datWrYear _ => ⟨0xFFF00, 0x20900⟩
  | .datWrRegA _ => ⟨0xFFF00, 0x20A00⟩
  | .datWrRegB _ => ⟨0xFFF00, 0x20B00⟩
  | .datWrRegC _ => ⟨0xFFF00, 0x20C00⟩
  | .datWrRegD _ => ⟨0xFFF00, 0x20D00⟩
  | .datWrNvram0E _ _ => ⟨0xFFE00, 0x20E00⟩
  | .datWrNvram10 _ _ => ⟨0xFF000, 0x21000⟩
  | .datWrNvram20 _ _ => ⟨0xFE000, 0x22000⟩
  | .datWrNvram40 _ _ => ⟨0xFC000, 0x24000⟩
  | .datWrNvram80 _ _ => ⟨0xF8000, 0x28000⟩
  | .datRdSeconds => ⟨0xFFFFF, 0x30000⟩
  | .datRdSecondsAlarm => ⟨0xFFFFF, 0x30100⟩
  | .datRdMinutes => ⟨0xFFFFF, 0x30200⟩
  | .datRdMinutesAlarm => ⟨0xFFFFF, 0x30300⟩
  | .datRdHours => ⟨0xFFFFF, 0x30400⟩
  | .datRdHoursAlarm => ⟨0xFFFFF, 0x30500⟩
  | .datRdDayOfWeek => ⟨0xFFFFF, 0x30600⟩
  | .datRdDayOfMonth => ⟨0xFFFFF, 0x30700⟩
  | .datRdMonth => ⟨0xFFFFF, 0x30800⟩
  | .datRdYear => ⟨0xFFFFF, 0x30900⟩
  | .datRdRegA => ⟨0xFFFFF, 0x30A00⟩
  | .datRdRegB => ⟨0xFFFFF, 0x30B00⟩
  | .datRdRegC => ⟨0xFFFFF, 0x30C00⟩
  | .datRdRegD => ⟨0xFFFFF, 0x30D00⟩
  | .datRdNvram0E _ => ⟨0xFFEFF, 0x30E00⟩
  | .datRdNvram10 _ => ⟨0xFF0FF, 0x31000⟩
  | .datRdNvram20 _ => ⟨0xFE0FF, 0x32000⟩
  | .datRdNvram40 _ => ⟨0xFC0FF, 0x34000⟩
  | .datRdNvram80 _ => ⟨0xF80FF, 0x38000⟩
  | .setByteSeconds _ => ⟨0xFFF00, 0x40000⟩
  | .setByteSecondsAlarm _ => ⟨0xFFF00, 0x40100⟩
  | .setByteMinutes _ => ⟨0xFFF00, 0x40200⟩
  | .setByteMinutesAlarm _ => ⟨0xFFF00, 0x40300⟩
  | .setByteHours _ => ⟨0xFFF00, 0x40400⟩
  | .setByteHoursAlarm _ => ⟨0xFFF00, 0x40500⟩
  | .setByteDayOfWeek _ => ⟨0xFFF00, 0x40600⟩
  | .setByteDayOfMonth _ => ⟨0xFFF00, 0x40700⟩
  | .setByteMonth _ => ⟨0xFFF00, 0x40800⟩
  | .setByteYear _ => ⟨0xFFF00, 0x40900⟩
  | .setByteRegA _ => ⟨0xFFF00, 0x40A00⟩
  | .setByteRegB _ => ⟨0xFFF00, 0x40B00⟩
  | .setByteRegC _ => ⟨0xFFF00, 0x40C00⟩
  | .setByteRegD _ => ⟨0xFFF00, 0x40D00⟩
  | .setByteNvram0E _ _ => ⟨0xFFE00, 0x40E00⟩
  | .setByteNvram10 _ _ => ⟨0xFF000, 0x41000⟩
  | .setByteNvram20 _ _ => ⟨0xFE000, 0x42000⟩
  | .setByteNvram40 _ _ => ⟨0xFC000, 0x44000⟩
  | .setByteNvram80 _ _ => ⟨0xF8000, 0x48000⟩
  | .getByteSeconds => ⟨0xFFFFF, 0x50000⟩
  | .getByteSecondsAlarm => ⟨0xFFFFF, 0x50100⟩
  | .getByteMinutes => ⟨0xFFFFF, 0x50200⟩
  | .getByteMinutesAlarm => ⟨0xFFFFF, 0x50300⟩
  | .getByteHours => ⟨0xFFFFF, 0x50400⟩
  | .getByteHoursAlarm => ⟨0xFFFFF, 0x50500⟩
  | .getByteDayOfWeek => ⟨0xFFFFF, 0x50600⟩
  | .getByteDayOfMonth => ⟨0xFFFFF, 0x50700⟩
  | .getByteMonth => ⟨0xFFFFF, 0x50800⟩
  | .getByteYear => ⟨0xFFFFF, 0x50900⟩
  | .getByteRegA => ⟨0xFFFFF, 0x50A00⟩
  | .getByteRegB => ⟨0xFFFFF, 0x50B00⟩
  | .getByteRegC => ⟨0xFFFFF, 0x50C00⟩
  | .getByteRegD => ⟨0xFFFFF, 0x50D00⟩
  | .getByteNvram0E _ => ⟨0xFFEFF, 0x50E00⟩
  | .getByteNvram10 _ => ⟨0xFF0FF, 0x51000⟩
  | .getByteNvram20 _ => ⟨0xFE0FF, 0x52000⟩
  | .getByteNvram40 _ => ⟨0xFC0FF, 0x54000⟩
  | .getByteNvram80 _ => ⟨0xF80FF, 0x58000⟩
  | .rstReinj => ⟨0xFFFFF, 0x60000⟩
  | .clkReset => ⟨0xFFFFF, 0x70000⟩
  | .suspend => ⟨0xFFFFF, 0x80000⟩
  | .resume => ⟨0xFFFFF, 0x90000⟩
  | .evPeriodic => ⟨0xFFFFF, 0xA0000⟩
  | .evUpdate => ⟨0xFFFFF, 0xB0000⟩
  | .evReinject => ⟨0xFFFFF, 0xC0000⟩
  | .init => ⟨0xFFFFF, 0xD0000⟩
  | .teardown => ⟨0xFFFFF, 0xE0000⟩

/-- The word belongs to the row. -/
def Row.holds (r : Row) (w : TWord) : Bool := w &&& r.mask == r.pattern

end Sys2Proof
end

