-- ==== Sys2Proof/Config.lean ====
section
/-! DEFINITION. The configuration record of 00_scope.md R10 and the calendar record of 41_codec.md R150.
The parameters that the spec fixes (ONE_SEC, RATE_TABLE, ALARM_WILDCARD_MIN, REG_COUNT, ARCH_LAST) are constants of
Machine/Tables.lean; the OPEN ones are the fields of `Config`. -/

namespace Sys2Proof

/-- The codec's internal time, 41_codec.md R150: seven natural numbers, valid or not. -/
structure CalTime where
  sec : Nat
  min : Nat
  hour : Nat
  dow : Nat
  mday : Nat
  mon : Nat
  year : Nat
deriving DecidableEq, Repr

/-- LOST_TICK_POLICY, 10_state.md R47. -/
inductive LostTickPolicy where
  | discard
  | slew
deriving DecidableEq, Repr

/-- The OPEN parameters of one device, 00_scope.md R10. Nothing in it changes after INIT (R10, R246); the model keeps
the record beside the device state as data that no operation writes (log 2). -/
structure Config where
  /-- BASE_YEAR: the absolute year that a year register of 0 means. -/
  baseYear : Nat
  /-- LOST_TICK_POLICY. -/
  lostTickPolicy : LostTickPolicy
  /-- COALESCE_MAX: the bound of `coalescedCount`; 0 is allowed. -/
  coalesceMax : Nat
  /-- SLEW_INTERVAL: ticks between two catch-up fires. -/
  slewInterval : Nat
  /-- SLEW_MAX_BACKLOG: whole seconds that Slew keeps to replay. -/
  slewMaxBacklog : Nat
  /-- SUSPEND_FROZEN: whether suspended wall time is withheld. -/
  suspendFrozen : Bool
  /-- INIT_REG_A. -/
  initRegA : Byte
  /-- INIT_REG_B. -/
  initRegB : Byte
  /-- INIT_TIME. -/
  initTime : CalTime
  /-- INIT_IMAGE as (index, byte) pairs; an index that is not listed has the default byte 0x00. -/
  initImage : List (Nat × Byte)
deriving DecidableEq, Repr

/-- The configuration State.reset is built with (DESIGN CHOICE, unsafe, log 2). INIT_REG_A, INIT_REG_B and INIT_IMAGE
are the defaults of 00_scope.md R10. The spec gives no default for the others; they have the values that
95_test_vectors.md chooses for its vectors, and no statement rests on them. -/
def Config.atReset : Config where
  baseYear := 2000
  lostTickPolicy := .discard
  coalesceMax := 3
  slewInterval := 4096
  slewMaxBacklog := 10
  suspendFrozen := false
  initRegA := 0x26
  initRegB := 0x02
  initTime := { sec := 0, min := 0, hour := 12, dow := 1, mday := 1, mon := 1, year := 0 }
  initImage := []

end Sys2Proof
end

