-- ==== Sys2Proof/Machine/State.lean ====
section
/-! DEFINITION. The machine's state as plain data: the device record of 10_state.md R20, the ghost `lastNow` of R50,
the configuration of R10, and the model's own input and output fields (log 4, log 6, log 7); the two reason types; the
state after reset. -/

namespace Sys2Proof.Machine

open Sys2Proof

/-- The register file as a sparse list of (index, byte) cells in one canonical form (`Memory.wf`, Machine/Memory.lean):
indices strictly rising, none listed with the byte an unlisted index reads as (log 3). -/
abbrev Memory := List Host.Cell

/-- `phase`, 10_state.md R48. -/
inductive Phase where
  | unattached
  | running
  | suspended
  | tornDown
deriving DecidableEq, Repr

/-- What the IRQ sink is told, 00_scope.md R17 and 47_platform_ops.md R284. -/
inductive Edge where
  | assert
  | deassert
deriving DecidableEq, Repr

/-- `timeBase`, 10_state.md R40. -/
structure TimeBase where
  /-- Host instant of the last anchor, in ticks of `now`. -/
  ref : Nat
  /-- Guest time owed to the time registers at `ref`, in ticks. -/
  off : Nat
deriving DecidableEq, Repr

/-- The state record of one device, 10_state.md R20, field by field. -/
structure Device where
  /-- `reg[0..255]`, R21. -/
  regs : Memory
  /-- R23. -/
  selectedIndex : Byte
  /-- R40. -/
  timeBase : TimeBase
  /-- R43; `none` when the periodic timer is not armed. -/
  nextPeriodicDeadline : Option Nat
  /-- R45. -/
  coalescedCount : Nat
  /-- R46. -/
  reinjectPending : Bool
  /-- R48. -/
  phase : Phase
  /-- The storage of `suspendInstant`, R20 and R49: SUSPEND, RESUME and INIT write it (46_suspend_reset.md R261, R262,
  47_platform_ops.md R280) and TEARDOWN leaves it as it is (R283). What the field reads as is the view
  `Device.suspendInstant` (log 12). -/
  suspendRecord : Option Nat
deriving DecidableEq, Repr

/-- One operation as the environment presents it, with its time argument (30_encoding.md R80; log 4). -/
inductive Request where
  /-- A transaction word and the `now` (or `wall`) that travels beside it. -/
  | word (tw : TWord) (time : Nat)
  /-- A call of `setCmosByte(handle, addr, value)` with `addr` as a natural number (47_platform_ops.md R281; log 14). -/
  | setCmosByte (addr : Nat) (v : Byte) (now : Nat)
  /-- A call of `getCmosByte(handle, addr)` with `addr` as a natural number (R282; log 14). -/
  | getCmosByte (addr : Nat) (now : Nat)
deriving DecidableEq, Repr

/-- The machine's state. -/
structure State where
  /-- The device record, R20. -/
  dev : Device
  /-- The `now` of the most recent operation that carried one, R50. -/
  lastNow : Nat
  /-- The configuration record, 00_scope.md R10; no operation writes it (log 2). -/
  config : Config
  /-- The operations presented and not yet run, oldest first: the total order of 20_memory.md R70 (log 4). -/
  inputs : List Request
  /-- The time argument of the operation being run: `now`, or `wall` for SUSPEND and RESUME, R12 (log 6). -/
  time : Nat
  /-- The result byte of the last operation, R17 (log 7). -/
  ret : Option Byte
  /-- The edge of the last operation, R17, 40_port_access.md R133 (log 7). -/
  edge : Option Edge
  /-- The IRQ sink's invocations since INIT, newest first, 47_platform_ops.md R284 (log 7). -/
  sink : List Edge
deriving DecidableEq, Repr

/-- The hardware has no fault: it takes no trap, has no handler and no halted state short of teardown (60_exceptions.md
R300, R314; 93_implementation_defined.md section 1). The type has no constructor, so no step can end in one (log 16). -/
inductive Fault
deriving DecidableEq, Repr

/-- Why an operation is no step of the hardware: the six reasons of 60_exceptions.md R310 in the order of their codes,
and the model's own mark for an instruction without a meaning. A refusal leaves no state (R300); all are safe. -/
inductive Refusal where
  /-- Code 1, raised by the fetch when the word does not decode (30_encoding.md R102). Safe. -/
  | reservedWord
  /-- Code 2, raised by every operation in a phase that does not admit it (R301). Safe. -/
  | wrongPhase
  /-- Code 3, raised by an operation whose `now` is before `lastNow` (R303). Safe. -/
  | timeWentBack
  /-- Code 4, raised by the direct accessors when `addr` is above 0xFF (R302). Safe. -/
  | addrOutOfRange
  /-- Code 5, raised by INIT (R307). Safe. -/
  | illFormedConfig
  /-- Code 6, raised by a timer event that is not enabled (R304). Safe. -/
  | notEnabled
  /-- Raised by exec's arm for an instruction that has no meaning yet; no arm raises it. Safe. -/
  | notModelled (mnemonic : String)
deriving DecidableEq, Repr

/-- The outcome type of every meaning. -/
abbrev Result := Host.Outcome State Fault Refusal

/-- The machine right after its one reset, INIT (70_reset_and_hazards.md R340), delivered at tick 0 (log 1) with the
configuration `Config.atReset` (log 2): R340's table, written out. The time registers hold 12:00:00, day of week 1,
1 January, year 0, in BCD and 24-hour form. -/
def State.reset : State where
  dev :=
    { regs := [(0x04, 0x12), (0x06, 0x01), (0x07, 0x01), (0x08, 0x01), (0x0A, 0x26), (0x0B, 0x02), (0x0D, 0x80)]
      selectedIndex := 0x00
      timeBase := { ref := 0, off := 0 }
      nextPeriodicDeadline := some 32
      coalescedCount := 0
      reinjectPending := false
      phase := .running
      suspendRecord := none }
  lastNow := 0
  config := Config.atReset
  inputs := []
  time := 0
  ret := none
  edge := none
  sink := []

end Sys2Proof.Machine
end

