-- ==== Sys2Proof/Machine/Memory.lean ====
section
/-! DEFINITION. The register file as memory: one read, one write, the canonical form, and the indexed access `reg[i]` of
00_scope.md R16 (`MemRead(i, 1)` and `MemWrite(i, 1, v)`). -/

namespace Sys2Proof.Machine

open Sys2Proof

/-- What an unlisted index reads as: the default byte of INIT_IMAGE, 00_scope.md R10 (log 3). -/
abbrev unlistedByte : Byte := 0x00

/-- The byte stored at index `a`. -/
def Memory.read : Memory → Nat → Byte
  | [], _ => unlistedByte
  | (k, v) :: rest, a => if k = a then v else Memory.read rest a

/-- Put a cell in its place in the rising order. -/
def Memory.insert (c : Host.Cell) : Memory → Memory
  | [] => [c]
  | d :: rest => if c.1 < d.1 then c :: d :: rest else d :: Memory.insert c rest

/-- Store `v` at index `a`; storing the byte an unlisted index reads as removes the cell. -/
def Memory.write (m : Memory) (a : Nat) (v : Byte) : Memory :=
  let others := m.filter (fun c => c.1 != a)
  if v = unlistedByte then others else Memory.insert (a, v) others

/-- The canonical form: indices strictly rising, each one of the 256 of 10_state.md R21, no cell that an unlisted index
would read the same. -/
abbrev Memory.wf (m : Memory) : Prop :=
  m.Pairwise (fun c d => c.1 < d.1) ∧ ∀ c ∈ m, c.1 < 256 ∧ c.2 ≠ unlistedByte

/-- `reg[i]`, 00_scope.md R16: the stored byte, with no side effect. -/
def Device.reg (d : Device) (i : Byte) : Byte := Memory.read d.regs i.toNat

/-- `reg[i] <- v`, 00_scope.md R16. -/
def Device.setReg (d : Device) (i v : Byte) : Device := { d with regs := Memory.write d.regs i.toNat v }

/-- `reg[i] <- reg[i] | m`, the form in which the events set a flag (43_update_alarm.md R201). -/
def Device.orReg (d : Device) (i m : Byte) : Device := d.setReg i (d.reg i ||| m)

/-- A register file whose byte at index `i` is `image[i]`, for every `i` of 0x00 to 0xFF: the loop of
47_platform_ops.md R280. -/
def Memory.ofImage (image : List (Nat × Byte)) : Memory :=
  (List.range 256).foldl (fun m i => Memory.write m i (Memory.read image i)) []

end Sys2Proof.Machine
end

