-- ==== Sys2Proof/Machine/Tables.lean ====
section
/-! DEFINITION. The constants of 00_scope.md R10 that this hardware fixes: the tick count of a second, the alarm
threshold, the rate table of 30_encoding.md R100, and the register indices of 10_state.md R21. -/

namespace Sys2Proof.Machine

open Sys2Proof

/-- ONE_SEC, 00_scope.md R10: ticks per second, the update period and the lost-tick tolerance. -/
abbrev oneSec : Nat := 32768

/-- ALARM_WILDCARD_MIN, 30_encoding.md R101. -/
abbrev alarmWildcardMin : Byte := 0xC0

/-- RATE_TABLE, 30_encoding.md R100, in ticks, by the rate-select field. -/
def rateTable (rs : BitVec 4) : Nat :=
  [0, 128, 256, 4, 8, 16, 32, 64, 128, 256, 512, 1024, 2048, 4096, 8192, 16384].getD rs.toNat 0

/-! Register indices, 10_state.md R21. -/

abbrev regSeconds : Byte := 0x00
abbrev regSecondsAlarm : Byte := 0x01
abbrev regMinutes : Byte := 0x02
abbrev regMinutesAlarm : Byte := 0x03
abbrev regHours : Byte := 0x04
abbrev regHoursAlarm : Byte := 0x05
abbrev regDayOfWeek : Byte := 0x06
abbrev regDayOfMonth : Byte := 0x07
abbrev regMonth : Byte := 0x08
abbrev regYear : Byte := 0x09
abbrev regA : Byte := 0x0A
abbrev regB : Byte := 0x0B
abbrev regC : Byte := 0x0C
abbrev regD : Byte := 0x0D

end Sys2Proof.Machine
end

