-- ==== Sys2Proof/Machine/Flags.lean ====
section
/-! DEFINITION. Every flag, enable, mode and line computation: the views of 10_state.md R33 to R35, R38, R39, R44, R49,
the status byte of 43_update_alarm.md R203, the alarm comparison of R202 and the edge of 40_port_access.md R133. -/

namespace Sys2Proof.Machine

open Sys2Proof

/-- `PF(s)`, R35. -/
def Device.pf (d : Device) : Bool := (d.reg regC).getLsbD 6
/-- `AF(s)`, R35. -/
def Device.af (d : Device) : Bool := (d.reg regC).getLsbD 5
/-- `UF(s)`, R35. -/
def Device.uf (d : Device) : Bool := (d.reg regC).getLsbD 4
/-- `PIE(s)`, R34. -/
def Device.pie (d : Device) : Bool := (d.reg regB).getLsbD 6
/-- `AIE(s)`, R34. -/
def Device.aie (d : Device) : Bool := (d.reg regB).getLsbD 5
/-- `UIE(s)`, R34. -/
def Device.uie (d : Device) : Bool := (d.reg regB).getLsbD 4
/-- `DM(s)`, R34: true is binary, false is BCD. -/
def Device.dm (d : Device) : Bool := (d.reg regB).getLsbD 2
/-- `H24(s)`, R34: true is 24-hour, false is 12-hour. -/
def Device.h24 (d : Device) : Bool := (d.reg regB).getLsbD 1
/-- The rate-select field of a control register A byte, R33. -/
def rateSelect (a : Byte) : BitVec 4 := a.extractLsb' 0 4
/-- `RS(s)`, R33. -/
def Device.rs (d : Device) : BitVec 4 := rateSelect (d.reg regA)
/-- `periodicPeriod(s)`, R44. -/
def Device.periodicPeriod (d : Device) : Nat := rateTable d.rs

/-- `suspendInstant`, R49: `none` except in phase Suspended. In TornDown the stored value, which TEARDOWN leaves as it is
(47_platform_ops.md R283), is so unobservable (DEDUCED, log 12). -/
def Device.suspendInstant (d : Device) : Option Nat := if d.phase = .suspended then d.suspendRecord else none

/-- Bits 6:4, where the pending flags and their enables stand, R38. -/
abbrev flagMask : Byte := 0x70
/-- PF as a mask of `REG_C`, 42_periodic.md R183. -/
abbrev pfMask : Byte := 0x40
/-- AF as a mask of `REG_C`, 43_update_alarm.md R201. -/
abbrev afMask : Byte := 0x20
/-- UF as a mask of `REG_C`, R201. -/
abbrev ufMask : Byte := 0x10

/-- `irqPendingFlags(s)`, R38. -/
def Device.irqPendingFlags (d : Device) : Byte := d.reg regC &&& flagMask
/-- `irqEnableFlags(s)`, R38. -/
def Device.irqEnableFlags (d : Device) : Byte := d.reg regB &&& flagMask

/-- `line(s)`, 10_state.md R39: the output line is a view of the flags and the enables. -/
def Device.line (d : Device) : Bool := (d.reg regC &&& d.reg regB &&& flagMask) != 0

/-- The value of the status register, 43_update_alarm.md R203: IRQF in bit 7, the pending flags, zeros. -/
def Device.statusByte (d : Device) : Byte := (if d.line then 0x80 else 0x00) ||| (d.reg regC &&& flagMask)

/-- `fieldPasses(t, a)`, 43_update_alarm.md R202: bytes are compared, not decoded values. -/
def fieldPasses (t a : Byte) : Bool := decide (alarmWildcardMin ≤ a) || a == t

/-- `alarmMatches(s)`, R202. -/
def Device.alarmMatches (d : Device) : Bool :=
  fieldPasses (d.reg regSeconds) (d.reg regSecondsAlarm) &&
  fieldPasses (d.reg regMinutes) (d.reg regMinutesAlarm) &&
  fieldPasses (d.reg regHours) (d.reg regHoursAlarm)

/-- The edge of an operation from the line before and after it, 40_port_access.md R133. -/
def edgeOf : Bool → Bool → Option Edge
  | false, true => some .assert
  | true, false => some .deassert
  | _, _ => none

end Sys2Proof.Machine
end

