-- ==== Sys2Proof/Machine/Codec.lean ====
section
/-! DEFINITION. The time and format codec of 41_codec.md: BCD and binary fields, the hours byte, the seven-register
decode and encode, the calendar and its increment; and the well-formedness of a configuration (00_scope.md R11). -/

namespace Sys2Proof.Machine

open Sys2Proof

/-- `fromBCD(b)`, R151: total, a nibble above 9 is read arithmetically. -/
def fromBCD (b : Byte) : Nat := (b.toNat >>> 4) * 10 + (b.toNat &&& 0x0F)

/-- `toBCD(v)`, R151: the tens count is cut to four bits. -/
def toBCD (v : Nat) : Byte := BitVec.ofNat 8 (((v / 10 % 16) <<< 4) ||| (v % 10))

/-- `decField(b, dm)`, R152. -/
def decField (b : Byte) (dm : Bool) : Nat := if dm then b.toNat else fromBCD b

/-- `encField(v, dm)`, R152; `BitVec.ofNat 8` is `mod 256`. -/
def encField (v : Nat) (dm : Bool) : Byte := if dm then BitVec.ofNat 8 v else toBCD v

/-- `decodeHour(b, dm, h24)`, R154. -/
def decodeHour (b : Byte) (dm h24 : Bool) : Nat :=
  let raw := decField (b &&& 0x7F) dm
  if h24 then raw else raw % 12 + (if b.getLsbD 7 then 12 else 0)

/-- The 12-hour reading of an hour on the 24-hour scale, R155: 0 reads 12. -/
def twelveHour (h : Nat) : Nat := if h % 12 = 0 then 12 else h % 12

/-- `encodeHour(h, dm, h24)`, R155. -/
def encodeHour (h : Nat) (dm h24 : Bool) : Byte :=
  if h24 then encField h dm &&& 0x7F
  else (encField (twelveHour h) dm &&& 0x7F) ||| (if 12 ≤ h then 0x80 else 0x00)

/-- `decode(s)`, R156. -/
def Device.decodeTime (d : Device) : CalTime where
  sec := decField (d.reg regSeconds) d.dm
  min := decField (d.reg regMinutes) d.dm
  hour := decodeHour (d.reg regHours) d.dm d.h24
  dow := decField (d.reg regDayOfWeek) d.dm
  mday := decField (d.reg regDayOfMonth) d.dm
  mon := decField (d.reg regMonth) d.dm
  year := decField (d.reg regYear) d.dm

/-- `encode(s, c)`, R157: the seven TIME registers and no other. -/
def Device.encodeTime (d : Device) (c : CalTime) : Device :=
  (((((((d.setReg regSeconds (encField c.sec d.dm)).setReg regMinutes (encField c.min d.dm)).setReg
    regHours (encodeHour c.hour d.dm d.h24)).setReg regDayOfWeek (encField c.dow d.dm)).setReg
    regDayOfMonth (encField c.mday d.dm)).setReg regMonth (encField c.mon d.dm)).setReg
    regYear (encField c.year d.dm))

/-- `isLeap(y)` for an absolute year, R158. -/
def isLeap (y : Nat) : Bool := y % 4 == 0 && (y % 100 != 0 || y % 400 == 0)

/-- `daysInMonth(mon, y)`, R159; an invalid month has 31 days. -/
def daysInMonth (mon y : Nat) : Nat :=
  if mon = 4 ∨ mon = 6 ∨ mon = 9 ∨ mon = 11 then 30
  else if mon = 2 then (if isLeap y then 29 else 28)
  else 31

/-- `tick1(c)`, R160: one second, each line of the cascade tried only when the one before it carried. -/
def tick1 (baseYear : Nat) (c : CalTime) : CalTime :=
  if c.sec + 1 < 60 then { c with sec := c.sec + 1 }
  else if c.min + 1 < 60 then { c with sec := 0, min := c.min + 1 }
  else if c.hour + 1 < 24 then { c with sec := 0, min := 0, hour := c.hour + 1 }
  else
    let dow := if 7 ≤ c.dow then 1 else c.dow + 1
    if c.mday < daysInMonth c.mon (baseYear + c.year) then
      { c with sec := 0, min := 0, hour := 0, dow := dow, mday := c.mday + 1 }
    else if c.mon < 12 then
      { c with sec := 0, min := 0, hour := 0, dow := dow, mday := 1, mon := c.mon + 1 }
    else
      { sec := 0, min := 0, hour := 0, dow := dow, mday := 1, mon := 1,
        year := if 99 ≤ c.year then 0 else c.year + 1 }

/-- `addSeconds(c, n)`, R161: `tick1` applied `n` times. -/
def addSeconds (baseYear : Nat) (c : CalTime) : Nat → CalTime
  | 0 => c
  | n + 1 => addSeconds baseYear (tick1 baseYear c) n

/-- A valid calendar time, R150. -/
def validTime (baseYear : Nat) (c : CalTime) : Bool :=
  decide (c.sec ≤ 59) && decide (c.min ≤ 59) && decide (c.hour ≤ 23) &&
  decide (1 ≤ c.dow) && decide (c.dow ≤ 7) && decide (1 ≤ c.mon) && decide (c.mon ≤ 12) &&
  decide (1 ≤ c.mday) && decide (c.mday ≤ daysInMonth c.mon (baseYear + c.year)) && decide (c.year ≤ 99)

/-- A well-formed configuration, 00_scope.md R11. -/
def configWellFormed (c : Config) : Bool :=
  decide (0 < c.slewInterval) && decide (c.slewInterval < oneSec) && validTime c.baseYear c.initTime

end Sys2Proof.Machine
end

