-- ==== Sys2Proof/Machine/Ops.lean ====
section
/-! DEFINITION. The shared operations: owed time and deadlines (10_state.md R41 to R43), the lost-tick choice
(45_lost_tick.md R241), coalescing and acknowledgment (44_coalescing.md R220, R222), the admission checks of
60_exceptions.md R301 and R303, and the completion of an operation. What a processor's manual calls taking an exception
has its counterpart in `complete`: an operation that takes the line from false to true reports `assert` and the sink is
invoked once (R314); the counterpart of the return is `Device.readAndClearC`, the guest's acknowledgment (R315). -/

namespace Sys2Proof.Machine

open Sys2Proof

/-! Time -/

/-- `owed(s, now)`, 10_state.md R41. -/
def Device.owed (d : Device) (now : Nat) : Nat := d.timeBase.off + (now - d.timeBase.ref)

/-- `pace`, 45_lost_tick.md R244. -/
def pace (c : Config) : Nat :=
  match c.lostTickPolicy with
  | .slew => c.slewInterval
  | .discard => 0

/-- `nextUpdateDeadline(s)`, 10_state.md R42. Under Slew it moves later when a RESUME brings `off` to ONE_SEC and less than
SLEW_INTERVAL was missing: following R42 there, and reading the "stay enabled" of 46_suspend_reset.md R263 as "not
cancelled", is the model's choice (DEDUCED, log 23; unsafe). -/
def Device.nextUpdateDeadline (c : Config) (d : Device) : Nat :=
  if d.timeBase.off < oneSec then d.timeBase.ref + (oneSec - d.timeBase.off) else d.timeBase.ref + pace c

/-- The periodic deadline that a restart of the timer at `now` gives, 42_periodic.md R180 (also R260, R280). -/
def armPeriodic (period now : Nat) : Option Nat := if period = 0 then none else some (now + period)

/-- The number of elapsed periods of a fire, 42_periodic.md R184. -/
def elapsedPeriods (now deadline period : Nat) : Nat := (now - deadline) / period + 1

/-- `secondsToApply(s, o)`, 45_lost_tick.md R241; natural subtraction saturates at 0. -/
def secondsToApply (c : Config) (o : Nat) : Nat :=
  if o - oneSec ≤ oneSec then 1
  else
    match c.lostTickPolicy with
    | .discard => o / oneSec
    | .slew => 1 + ((o / oneSec - 1) - c.slewMaxBacklog)

/-! Coalescing -/

/-- `coalesce(k)`, 44_coalescing.md R220. -/
def Device.coalesce (c : Config) (k : Nat) (d : Device) : Device :=
  { d with coalescedCount := min c.coalesceMax (d.coalescedCount + k) }

/-- `Acknowledge()`, 44_coalescing.md R222. -/
def Device.acknowledge (d : Device) : Device :=
  if 0 < d.coalescedCount then { d with coalescedCount := d.coalescedCount - 1, reinjectPending := true } else d

/-- The state change of `ReadAndClearC()`, 43_update_alarm.md R204: the flags are cleared together, then the
acknowledgment. The byte returned is `Device.statusByte` of the state before. -/
def Device.readAndClearC (d : Device) : Device := (d.setReg regC 0x00).acknowledge

/-! The three fires, as changes of the device record -/

/-- The pseudocode of EV_PERIODIC, 42_periodic.md R183, against the deadline `dl`. The tests of PF and PIE read the
state before the fire. -/
def Device.firePeriodic (c : Config) (now dl : Nat) (d : Device) : Device :=
  let p := d.periodicPeriod
  let n := elapsedPeriods now dl p
  let rearmed := { d with nextPeriodicDeadline := some (dl + n * p) }
  let counted := if d.pie then rearmed.coalesce c (n - 1) else rearmed
  if d.pf && d.pie then counted.coalesce c 1 else counted.orReg regC pfMask

/-- The pseudocode of EV_UPDATE, 43_update_alarm.md R201, in the order of R205. -/
def Device.fireUpdate (c : Config) (now : Nat) (d : Device) : Device :=
  let o := d.owed now
  let n := secondsToApply c o
  let stepped := d.encodeTime (addSeconds c.baseYear d.decodeTime n)
  let ended := stepped.orReg regC ufMask
  let compared := if ended.alarmMatches then ended.orReg regC afMask else ended
  { compared with timeBase := { ref := now, off := o - n * oneSec } }

/-- The pseudocode of EV_REINJECT, 44_coalescing.md R224. -/
def Device.fireReinject (c : Config) (d : Device) : Device :=
  let counted := if d.pf then d.coalesce c 1 else d.orReg regC pfMask
  { counted with reinjectPending := false }

/-! Admission and completion -/

/-- The two common refusals of 40_port_access.md, in the order of 60_exceptions.md R309: the operation is admitted only
in phase Running (R301) and only when `now` has not gone back (R303). -/
def whenRunning (s : State) (op : Result) : Result :=
  if s.dev.phase = .running then (if s.time < s.lastNow then .refused .timeWentBack else op) else .refused .wrongPhase

/-- The sink's record after an operation with this edge, 47_platform_ops.md R284. -/
def recordEdge : Option Edge → List Edge → List Edge
  | some e, log => e :: log
  | none, log => log

/-- Complete an operation that leaves the device record `d`, returns `ret` and leaves `lastNow = last`: the line is
evaluated once, the edge of 40_port_access.md R133 is reported and the IRQ sink is invoked if there is one (R284, R314). -/
def complete (s : State) (d : Device) (ret : Option Byte) (last : Nat) : State :=
  { s with
    dev := d
    lastNow := last
    ret := ret
    edge := edgeOf s.dev.line d.line
    sink := recordEdge (edgeOf s.dev.line d.line) s.sink }

/-- Complete an operation that carries `now`: it ends with `lastNow <- now` (R303). -/
def completeNow (s : State) (d : Device) (ret : Option Byte) : State := complete s d ret s.time

end Sys2Proof.Machine
end

