-- ==== Sys2Proof/Machine/Operands.lean ====
section
/-! DEFINITION. The operand forms: the class of a register index (30_encoding.md R83), the two sides of the semantic
decoder (40_port_access.md R135, R136), index resolution (R82), and the transaction word of a request. -/

namespace Sys2Proof.Machine

open Sys2Proof

/-- The seven classes of 30_encoding.md R83. -/
inductive RegClass where
  | time
  | alarm
  | ctrlA
  | ctrlB
  | ctrlC
  | ctrlD
  | nvram
deriving DecidableEq, Repr

/-- The class of an index, R83. -/
def regClass (i : Byte) : RegClass :=
  if i ∈ [regSeconds, regMinutes, regHours, regDayOfWeek, regDayOfMonth, regMonth, regYear] then .time
  else if i ∈ [regSecondsAlarm, regMinutesAlarm, regHoursAlarm] then .alarm
  else if i = regA then .ctrlA
  else if i = regB then .ctrlB
  else if i = regC then .ctrlC
  else if i = regD then .ctrlD
  else .nvram

/-- `WriteReg` on CTRL_A, 42_periodic.md R180: bit 7 is dropped and the periodic timer restarts. -/
def Device.writeCtrlA (v : Byte) (now : Nat) (d : Device) : Device :=
  { d.setReg regA (v &&& 0x7F) with nextPeriodicDeadline := armPeriodic (rateTable (rateSelect v)) now }

/-- `WriteReg(i, v, now)`, 40_port_access.md R135: TIME R124, ALARM R125, NVRAM R126, CTRL_A R180, CTRL_B R128,
CTRL_C and CTRL_D R127. A CTRL_B write that clears PIE and one that sets it again give a `deassert` and a second `assert`
while PF is pending: following R128 there, and not "no operation" of 44_coalescing.md R227, is the model's choice (DEDUCED,
log 24; unsafe). -/
def Device.writeReg (i v : Byte) (now : Nat) (d : Device) : Device :=
  match regClass i with
  | .time => d.setReg i v
  | .alarm => d.setReg i v
  | .nvram => d.setReg i v
  | .ctrlA => d.writeCtrlA v now
  | .ctrlB => d.setReg regB v
  | .ctrlC => d
  | .ctrlD => d

/-- `PeekReg(i)`, 40_port_access.md R136: TIME, ALARM, NVRAM R129, CTRL_A R130, CTRL_B R131, CTRL_C R203, CTRL_D R132. -/
def Device.peekReg (i : Byte) (d : Device) : Byte :=
  match regClass i with
  | .time => d.reg i
  | .alarm => d.reg i
  | .nvram => d.reg i
  | .ctrlA => d.reg regA
  | .ctrlB => d.reg regB
  | .ctrlC => d.statusByte
  | .ctrlD => 0x80

/-- Index resolution, 30_encoding.md R82: the `idx` of a data-port word is the selected index; the guest supplies none
(log 8). Every other word stands as it is. -/
def resolveIndex (selected : Byte) (w : TWord) : TWord :=
  if opField w = 0x2 ∨ opField w = 0x3 then mkWord (opField w) selected (dataField w) else w

/-- The time argument of a request. -/
def Request.time : Request → Nat
  | .word _ t => t
  | .setCmosByte _ _ t => t
  | .getCmosByte _ t => t

/-- The transaction word of a request in a state with this selected index; a direct access whose `addr` is above 0xFF
has none (47_platform_ops.md R281, R282; 95_test_vectors.md V47-3). -/
def Request.transactionWord (selected : Byte) : Request → Option TWord
  | .word w _ => some (resolveIndex selected w)
  | .setCmosByte addr v _ => if addr < 256 then some (mkWord 0x4 (BitVec.ofNat 8 addr) v) else none
  | .getCmosByte addr _ => if addr < 256 then some (mkWord 0x5 (BitVec.ofNat 8 addr) 0x00) else none

/-- Take the oldest request off the inputs and latch its time argument (log 4, log 6). -/
def State.accept (s : State) (r : Request) (rest : List Request) : State := { s with inputs := rest, time := r.time }

/-- The instant at which `State.withFetchWord` presents a word: `lastNow`, or for a timer event the later of that and
the instant at which it falls due, the environment never delivering it early (60_exceptions.md R304; log 5). -/
def State.presentTime (s : State) (w : TWord) : Nat :=
  if opField w = 0xA then max s.lastNow (s.dev.nextPeriodicDeadline.getD 0)
  else if opField w = 0xB then max s.lastNow (s.dev.nextUpdateDeadline s.config)
  else s.lastNow

/-- The state with a word presented as its next operation: the request stands first, at the instant of
`State.presentTime`, and for a data-port word the index it names is selected, since the fetch fills `idx` from
`selectedIndex` (R82; log 5). -/
def State.present (s : State) (w : TWord) : State :=
  { s with
    inputs := .word w (s.presentTime w) :: s.inputs
    dev := if opField w = 0x2 ∨ opField w = 0x3 then { s.dev with selectedIndex := idxField w } else s.dev }

end Sys2Proof.Machine
end

