-- ==== Sys2Proof/Machine/Notifiers.lean ====
section
/-! DEFINITION. The host notifiers, 46_suspend_reset.md: CLK_RESET, SUSPEND, RESUME. -/

namespace Sys2Proof.Machine

open Sys2Proof

/-- CLK_RESET, R260: the time contract is not checked, `off` is kept, the periodic timer restarts. -/
def execClkReset (s : State) : Result :=
  if s.dev.phase = .running then
    .next (completeNow s
      { s.dev with
        timeBase := { ref := s.time, off := s.dev.timeBase.off }
        nextPeriodicDeadline := armPeriodic s.dev.periodicPeriod s.time } none)
  else .refused .wrongPhase

/-- SUSPEND, R261: its time argument is `wall`, and `lastNow` stays (R303). -/
def execSuspend (s : State) : Result :=
  if s.dev.phase = .running then
    .next (complete s { s.dev with suspendRecord := some s.time, phase := .suspended } none s.lastNow)
  else .refused .wrongPhase

/-- The wall time RESUME credits, R262: `max(0, wall - suspendInstant)`, nothing under SUSPEND_FROZEN. A state without
a recorded instant, which no run reaches in phase Suspended, is credited nothing (log 13). -/
def suspendCredit (c : Config) (suspendInstant : Option Nat) (wall : Nat) : Nat :=
  if c.suspendFrozen then 0
  else
    match suspendInstant with
    | some w => wall - w
    | none => 0

/-- RESUME, R262. It stores no deadline of EV_UPDATE: the event is due after it as 10_state.md R42 says of the new `off`,
which under Slew may be later than before (R262); that the "stay enabled" of R263 is no more than "not cancelled" there is
the model's reading (DEDUCED, log 23; unsafe). -/
def execResume (s : State) : Result :=
  if s.dev.phase = .suspended then
    .next (complete s
      { s.dev with
        timeBase :=
          { ref := s.dev.timeBase.ref
            off := s.dev.timeBase.off + suspendCredit s.config s.dev.suspendInstant s.time }
        suspendRecord := none
        phase := .running } none s.lastNow)
  else .refused .wrongPhase

end Sys2Proof.Machine
end

