-- ==== Sys2Proof/Machine/Platform.lean ====
section
/-! DEFINITION. The platform's operations, 47_platform_ops.md: SET_BYTE, GET_BYTE, INIT, TEARDOWN, and RST_REINJ of
44_coalescing.md R225. -/

namespace Sys2Proof.Machine

open Sys2Proof

/-- SET_BYTE at an index, R281: what a data-port write to that index does, `selectedIndex` neither read nor written. -/
def setByte (idx v : Byte) (s : State) : Result :=
  whenRunning s (.next (completeNow s (s.dev.writeReg idx v s.time) none))

/-- GET_BYTE at an index, R282: `PeekReg` at every index, `REG_C` included; no state changes. -/
def getByte (idx : Byte) (s : State) : Result :=
  whenRunning s (.next (completeNow s s.dev (some (s.dev.peekReg idx))))

/-- A direct access whose `addr` is above 0xFF, R302: refused, after the checks that come before it in R309. -/
def rejectAddress (s : State) : Result := whenRunning s (.refused .addrOutOfRange)

/-! SET_BYTE, one definition per row -/

/-- SET_BYTE at index 0x00, R124. -/
def execSetByteSeconds (v : Byte) (s : State) : Result := setByte regSeconds v s
/-- SET_BYTE at index 0x01, R125. -/
def execSetByteSecondsAlarm (v : Byte) (s : State) : Result := setByte regSecondsAlarm v s
/-- SET_BYTE at index 0x02, R124. -/
def execSetByteMinutes (v : Byte) (s : State) : Result := setByte regMinutes v s
/-- SET_BYTE at index 0x03, R125. -/
def execSetByteMinutesAlarm (v : Byte) (s : State) : Result := setByte regMinutesAlarm v s
/-- SET_BYTE at index 0x04, R124. -/
def execSetByteHours (v : Byte) (s : State) : Result := setByte regHours v s
/-- SET_BYTE at index 0x05, R125. -/
def execSetByteHoursAlarm (v : Byte) (s : State) : Result := setByte regHoursAlarm v s
/-- SET_BYTE at index 0x06, R124. -/
def execSetByteDayOfWeek (v : Byte) (s : State) : Result := setByte regDayOfWeek v s
/-- SET_BYTE at index 0x07, R124. -/
def execSetByteDayOfMonth (v : Byte) (s : State) : Result := setByte regDayOfMonth v s
/-- SET_BYTE at index 0x08, R124. -/
def execSetByteMonth (v : Byte) (s : State) : Result := setByte regMonth v s
/-- SET_BYTE at index 0x09, R124. -/
def execSetByteYear (v : Byte) (s : State) : Result := setByte regYear v s
/-- SET_BYTE at index 0x0A, R180. -/
def execSetByteRegA (v : Byte) (s : State) : Result := setByte regA v s
/-- SET_BYTE at index 0x0B, R128. -/
def execSetByteRegB (v : Byte) (s : State) : Result := setByte regB v s
/-- SET_BYTE at index 0x0C, R127. -/
def execSetByteRegC (v : Byte) (s : State) : Result := setByte regC v s
/-- SET_BYTE at index 0x0D, R127. -/
def execSetByteRegD (v : Byte) (s : State) : Result := setByte regD v s
/-- SET_BYTE at an index of 0x0E to 0x0F, R126. -/
def execSetByteNvram0E (idx : Byte) (v : Byte) (s : State) : Result := setByte idx v s
/-- SET_BYTE at an index of 0x10 to 0x1F, R126. -/
def execSetByteNvram10 (idx : Byte) (v : Byte) (s : State) : Result := setByte idx v s
/-- SET_BYTE at an index of 0x20 to 0x3F, R126. -/
def execSetByteNvram20 (idx : Byte) (v : Byte) (s : State) : Result := setByte idx v s
/-- SET_BYTE at an index of 0x40 to 0x7F, R126. -/
def execSetByteNvram40 (idx : Byte) (v : Byte) (s : State) : Result := setByte idx v s
/-- SET_BYTE at an index of 0x80 to 0xFF, R126. -/
def execSetByteNvram80 (idx : Byte) (v : Byte) (s : State) : Result := setByte idx v s

/-! GET_BYTE, one definition per row -/

/-- GET_BYTE at index 0x00, R129. -/
def execGetByteSeconds (s : State) : Result := getByte regSeconds s
/-- GET_BYTE at index 0x01, R129. -/
def execGetByteSecondsAlarm (s : State) : Result := getByte regSecondsAlarm s
/-- GET_BYTE at index 0x02, R129. -/
def execGetByteMinutes (s : State) : Result := getByte regMinutes s
/-- GET_BYTE at index 0x03, R129. -/
def execGetByteMinutesAlarm (s : State) : Result := getByte regMinutesAlarm s
/-- GET_BYTE at index 0x04, R129. -/
def execGetByteHours (s : State) : Result := getByte regHours s
/-- GET_BYTE at index 0x05, R129. -/
def execGetByteHoursAlarm (s : State) : Result := getByte regHoursAlarm s
/-- GET_BYTE at index 0x06, R129. -/
def execGetByteDayOfWeek (s : State) : Result := getByte regDayOfWeek s
/-- GET_BYTE at index 0x07, R129. -/
def execGetByteDayOfMonth (s : State) : Result := getByte regDayOfMonth s
/-- GET_BYTE at index 0x08, R129. -/
def execGetByteMonth (s : State) : Result := getByte regMonth s
/-- GET_BYTE at index 0x09, R129. -/
def execGetByteYear (s : State) : Result := getByte regYear s
/-- GET_BYTE at index 0x0A, R130. -/
def execGetByteRegA (s : State) : Result := getByte regA s
/-- GET_BYTE at index 0x0B, R131. -/
def execGetByteRegB (s : State) : Result := getByte regB s
/-- GET_BYTE at index 0x0C, R203. -/
def execGetByteRegC (s : State) : Result := getByte regC s
/-- GET_BYTE at index 0x0D, R132. -/
def execGetByteRegD (s : State) : Result := getByte regD s
/-- GET_BYTE at an index of 0x0E to 0x0F, R129. -/
def execGetByteNvram0E (idx : Byte) (s : State) : Result := getByte idx s
/-- GET_BYTE at an index of 0x10 to 0x1F, R129. -/
def execGetByteNvram10 (idx : Byte) (s : State) : Result := getByte idx s
/-- GET_BYTE at an index of 0x20 to 0x3F, R129. -/
def execGetByteNvram20 (idx : Byte) (s : State) : Result := getByte idx s
/-- GET_BYTE at an index of 0x40 to 0x7F, R129. -/
def execGetByteNvram40 (idx : Byte) (s : State) : Result := getByte idx s
/-- GET_BYTE at an index of 0x80 to 0xFF, R129. -/
def execGetByteNvram80 (idx : Byte) (s : State) : Result := getByte idx s

/-! The backlog, construction, teardown -/

/-- RST_REINJ, 44_coalescing.md R225. -/
def execRstReinj (s : State) : Result :=
  whenRunning s (.next (completeNow s { s.dev with coalescedCount := 0, reinjectPending := false } none))

/-- The register file INIT leaves, R280: the image, then the control registers; the time registers follow. -/
def initRegs (c : Config) : Memory :=
  Memory.write (Memory.write (Memory.write (Memory.write (Memory.ofImage c.initImage)
    regA.toNat (c.initRegA &&& 0x7F)) regB.toNat c.initRegB) regC.toNat 0x00) regD.toNat 0x80

/-- The device record INIT leaves at `now`, R280 and 70_reset_and_hazards.md R340. -/
def initDevice (c : Config) (now : Nat) : Device :=
  let blank : Device :=
    { regs := initRegs c
      selectedIndex := 0x00
      timeBase := { ref := now, off := 0 }
      nextPeriodicDeadline := armPeriodic (rateTable (rateSelect c.initRegA)) now
      coalescedCount := 0
      reinjectPending := false
      phase := .running
      suspendRecord := none }
  blank.encodeTime c.initTime

/-- INIT, R280: admitted only before it has run (R301), refused for an ill-formed configuration (R307). It returns
nothing, gives no edge and does not invoke the sink, whatever the unspecified registers held before; the record of the
sink's invocations starts empty (log 10). -/
def execInit (s : State) : Result :=
  if s.dev.phase = .unattached then
    if configWellFormed s.config then
      .next { s with dev := initDevice s.config s.time, lastNow := s.time, ret := none, edge := none, sink := [] }
    else .refused .illFormedConfig
  else .refused .wrongPhase

/-- TEARDOWN, R283: admitted from Running and Suspended (R301), the time contract not checked (R303); `lastNow` ends at
its `now` as after every admitted operation that carries one (R303; log 11). Every other field is
left as it is, the stored suspend instant among them (log 12). -/
def execTeardown (s : State) : Result :=
  if s.dev.phase = .running ∨ s.dev.phase = .suspended then
    .next (completeNow s
      { s.dev with nextPeriodicDeadline := none, reinjectPending := false, phase := .tornDown } none)
  else .refused .wrongPhase

end Sys2Proof.Machine
end

