-- ==== Sys2Proof/Machine/Ports.lean ====
section
/-! DEFINITION. The guest's port operations, 40_port_access.md: IDX_WR, IDX_RD, DAT_WR, DAT_RD. A data-port instruction
has its index resolved (30_encoding.md R82; the fetch of Machine/Fetch.lean fills it from `selectedIndex`, log 8). -/

namespace Sys2Proof.Machine

open Sys2Proof

/-- IDX_WR, R120. -/
def execIdxWr (v : Byte) (s : State) : Result :=
  whenRunning s (.next (completeNow s { s.dev with selectedIndex := v } none))

/-- IDX_RD, R121: the write-only port reads 0xFF. -/
def execIdxRd (s : State) : Result := whenRunning s (.next (completeNow s s.dev (some 0xFF)))

/-- DAT_WR at a resolved index, R122. -/
def datWr (idx v : Byte) (s : State) : Result :=
  whenRunning s (.next (completeNow s (s.dev.writeReg idx v s.time) none))

/-- DAT_RD at a resolved index, R123: the one read with a side effect is that of `REG_C` (R204). -/
def datRd (idx : Byte) (s : State) : Result :=
  whenRunning s
    (if idx = regC then .next (completeNow s s.dev.readAndClearC (some s.dev.statusByte))
     else .next (completeNow s s.dev (some (s.dev.peekReg idx))))

/-! DAT_WR, one definition per row -/

/-- DAT_WR at index 0x00, R124. -/
def execDatWrSeconds (v : Byte) (s : State) : Result := datWr regSeconds v s
/-- DAT_WR at index 0x01, R125. -/
def execDatWrSecondsAlarm (v : Byte) (s : State) : Result := datWr regSecondsAlarm v s
/-- DAT_WR at index 0x02, R124. -/
def execDatWrMinutes (v : Byte) (s : State) : Result := datWr regMinutes v s
/-- DAT_WR at index 0x03, R125. -/
def execDatWrMinutesAlarm (v : Byte) (s : State) : Result := datWr regMinutesAlarm v s
/-- DAT_WR at index 0x04, R124. -/
def execDatWrHours (v : Byte) (s : State) : Result := datWr regHours v s
/-- DAT_WR at index 0x05, R125. -/
def execDatWrHoursAlarm (v : Byte) (s : State) : Result := datWr regHoursAlarm v s
/-- DAT_WR at index 0x06, R124. -/
def execDatWrDayOfWeek (v : Byte) (s : State) : Result := datWr regDayOfWeek v s
/-- DAT_WR at index 0x07, R124. -/
def execDatWrDayOfMonth (v : Byte) (s : State) : Result := datWr regDayOfMonth v s
/-- DAT_WR at index 0x08, R124. -/
def execDatWrMonth (v : Byte) (s : State) : Result := datWr regMonth v s
/-- DAT_WR at index 0x09, R124. -/
def execDatWrYear (v : Byte) (s : State) : Result := datWr regYear v s
/-- DAT_WR at index 0x0A, R180. -/
def execDatWrRegA (v : Byte) (s : State) : Result := datWr regA v s
/-- DAT_WR at index 0x0B, R128. -/
def execDatWrRegB (v : Byte) (s : State) : Result := datWr regB v s
/-- DAT_WR at index 0x0C, R127. -/
def execDatWrRegC (v : Byte) (s : State) : Result := datWr regC v s
/-- DAT_WR at index 0x0D, R127. -/
def execDatWrRegD (v : Byte) (s : State) : Result := datWr regD v s
/-- DAT_WR at an index of 0x0E to 0x0F, R126. -/
def execDatWrNvram0E (idx : Byte) (v : Byte) (s : State) : Result := datWr idx v s
/-- DAT_WR at an index of 0x10 to 0x1F, R126. -/
def execDatWrNvram10 (idx : Byte) (v : Byte) (s : State) : Result := datWr idx v s
/-- DAT_WR at an index of 0x20 to 0x3F, R126. -/
def execDatWrNvram20 (idx : Byte) (v : Byte) (s : State) : Result := datWr idx v s
/-- DAT_WR at an index of 0x40 to 0x7F, R126. -/
def execDatWrNvram40 (idx : Byte) (v : Byte) (s : State) : Result := datWr idx v s
/-- DAT_WR at an index of 0x80 to 0xFF, R126. -/
def execDatWrNvram80 (idx : Byte) (v : Byte) (s : State) : Result := datWr idx v s

/-! DAT_RD, one definition per row -/

/-- DAT_RD at index 0x00, R129. -/
def execDatRdSeconds (s : State) : Result := datRd regSeconds s
/-- DAT_RD at index 0x01, R129. -/
def execDatRdSecondsAlarm (s : State) : Result := datRd regSecondsAlarm s
/-- DAT_RD at index 0x02, R129. -/
def execDatRdMinutes (s : State) : Result := datRd regMinutes s
/-- DAT_RD at index 0x03, R129. -/
def execDatRdMinutesAlarm (s : State) : Result := datRd regMinutesAlarm s
/-- DAT_RD at index 0x04, R129. -/
def execDatRdHours (s : State) : Result := datRd regHours s
/-- DAT_RD at index 0x05, R129. -/
def execDatRdHoursAlarm (s : State) : Result := datRd regHoursAlarm s
/-- DAT_RD at index 0x06, R129. -/
def execDatRdDayOfWeek (s : State) : Result := datRd regDayOfWeek s
/-- DAT_RD at index 0x07, R129. -/
def execDatRdDayOfMonth (s : State) : Result := datRd regDayOfMonth s
/-- DAT_RD at index 0x08, R129. -/
def execDatRdMonth (s : State) : Result := datRd regMonth s
/-- DAT_RD at index 0x09, R129. -/
def execDatRdYear (s : State) : Result := datRd regYear s
/-- DAT_RD at index 0x0A, R130. -/
def execDatRdRegA (s : State) : Result := datRd regA s
/-- DAT_RD at index 0x0B, R131. -/
def execDatRdRegB (s : State) : Result := datRd regB s
/-- DAT_RD at index 0x0C, R204. -/
def execDatRdRegC (s : State) : Result := datRd regC s
/-- DAT_RD at index 0x0D, R132. -/
def execDatRdRegD (s : State) : Result := datRd regD s
/-- DAT_RD at an index of 0x0E to 0x0F, R129. -/
def execDatRdNvram0E (idx : Byte) (s : State) : Result := datRd idx s
/-- DAT_RD at an index of 0x10 to 0x1F, R129. -/
def execDatRdNvram10 (idx : Byte) (s : State) : Result := datRd idx s
/-- DAT_RD at an index of 0x20 to 0x3F, R129. -/
def execDatRdNvram20 (idx : Byte) (s : State) : Result := datRd idx s
/-- DAT_RD at an index of 0x40 to 0x7F, R129. -/
def execDatRdNvram40 (idx : Byte) (s : State) : Result := datRd idx s
/-- DAT_RD at an index of 0x80 to 0xFF, R129. -/
def execDatRdNvram80 (idx : Byte) (s : State) : Result := datRd idx s

end Sys2Proof.Machine
end

