-- ==== Sys2Proof/Machine/Timers.lean ====
section
/-! DEFINITION. The block's three timer events: EV_PERIODIC (42_periodic.md), EV_UPDATE (43_update_alarm.md,
45_lost_tick.md), EV_REINJECT (44_coalescing.md). An event that is not enabled is refused (60_exceptions.md R304). -/

namespace Sys2Proof.Machine

open Sys2Proof

/-- EV_PERIODIC, R182, R183. -/
def execEvPeriodic (s : State) : Result :=
  whenRunning s
    (match s.dev.nextPeriodicDeadline with
     | some dl =>
       if dl ≤ s.time then .next (completeNow s (s.dev.firePeriodic s.config s.time dl) none) else .refused .notEnabled
     | none => .refused .notEnabled)

/-- EV_UPDATE, R200, R201. -/
def execEvUpdate (s : State) : Result :=
  whenRunning s
    (if s.dev.nextUpdateDeadline s.config ≤ s.time then .next (completeNow s (s.dev.fireUpdate s.config s.time) none)
     else .refused .notEnabled)

/-- EV_REINJECT, R223, R224. -/
def execEvReinject (s : State) : Result :=
  whenRunning s
    (if s.dev.reinjectPending then .next (completeNow s (s.dev.fireReinject s.config) none) else .refused .notEnabled)

end Sys2Proof.Machine
end

