-- ==== Sys2Proof/Machine/Dispatch.lean ====
section
/-! DEFINITION. The dispatch: one arm per constructor of Instr, one direct call of its meaning. -/

namespace Sys2Proof.Machine

open Sys2Proof

def exec (i : Instr) (s : State) : Host.Outcome State Fault Refusal :=
  match i with
  | .idxWr v => Sys2Proof.Machine.execIdxWr v s
  | .idxRd => Sys2Proof.Machine.execIdxRd s
  | .datWrSeconds v => Sys2Proof.Machine.execDatWrSeconds v s
  | .datWrSecondsAlarm v => Sys2Proof.Machine.execDatWrSecondsAlarm v s
  | .datWrMinutes v => Sys2Proof.Machine.execDatWrMinutes v s
  | .datWrMinutesAlarm v => Sys2Proof.Machine.execDatWrMinutesAlarm v s
  | .datWrHours v => Sys2Proof.Machine.execDatWrHours v s
  | .datWrHoursAlarm v => Sys2Proof.Machine.execDatWrHoursAlarm v s
  | .datWrDayOfWeek v => Sys2Proof.Machine.execDatWrDayOfWeek v s
  | .datWrDayOfMonth v => Sys2Proof.Machine.execDatWrDayOfMonth v s
  | .datWrMonth v => Sys2Proof.Machine.execDatWrMonth v s
  | .datWrYear v => Sys2Proof.Machine.execDatWrYear v s
  | .datWrRegA v => Sys2Proof.Machine.execDatWrRegA v s
  | .datWrRegB v => Sys2Proof.Machine.execDatWrRegB v s
  | .datWrRegC v => Sys2Proof.Machine.execDatWrRegC v s
  | .datWrRegD v => Sys2Proof.Machine.execDatWrRegD v s
  | .datWrNvram0E idx v => Sys2Proof.Machine.execDatWrNvram0E idx v s
  | .datWrNvram10 idx v => Sys2Proof.Machine.execDatWrNvram10 idx v s
  | .datWrNvram20 idx v => Sys2Proof.Machine.execDatWrNvram20 idx v s
  | .datWrNvram40 idx v => Sys2Proof.Machine.execDatWrNvram40 idx v s
  | .datWrNvram80 idx v => Sys2Proof.Machine.execDatWrNvram80 idx v s
  | .datRdSeconds => Sys2Proof.Machine.execDatRdSeconds s
  | .datRdSecondsAlarm => Sys2Proof.Machine.execDatRdSecondsAlarm s
  | .datRdMinutes => Sys2Proof.Machine.execDatRdMinutes s
  | .datRdMinutesAlarm => Sys2Proof.Machine.execDatRdMinutesAlarm s
  | .datRdHours => Sys2Proof.Machine.execDatRdHours s
  | .datRdHoursAlarm => Sys2Proof.Machine.execDatRdHoursAlarm s
  | .datRdDayOfWeek => Sys2Proof.Machine.execDatRdDayOfWeek s
  | .datRdDayOfMonth => Sys2Proof.Machine.execDatRdDayOfMonth s
  | .datRdMonth => Sys2Proof.Machine.execDatRdMonth s
  | .datRdYear => Sys2Proof.Machine.execDatRdYear s
  | .datRdRegA => Sys2Proof.Machine.execDatRdRegA s
  | .datRdRegB => Sys2Proof.Machine.execDatRdRegB s
  | .datRdRegC => Sys2Proof.Machine.execDatRdRegC s
  | .datRdRegD => Sys2Proof.Machine.execDatRdRegD s
  | .datRdNvram0E idx => Sys2Proof.Machine.execDatRdNvram0E idx s
  | .datRdNvram10 idx => Sys2Proof.Machine.execDatRdNvram10 idx s
  | .datRdNvram20 idx => Sys2Proof.Machine.execDatRdNvram20 idx s
  | .datRdNvram40 idx => Sys2Proof.Machine.execDatRdNvram40 idx s
  | .datRdNvram80 idx => Sys2Proof.Machine.execDatRdNvram80 idx s
  | .setByteSeconds v => Sys2Proof.Machine.execSetByteSeconds v s
  | .setByteSecondsAlarm v => Sys2Proof.Machine.execSetByteSecondsAlarm v s
  | .setByteMinutes v => Sys2Proof.Machine.execSetByteMinutes v s
  | .setByteMinutesAlarm v => Sys2Proof.Machine.execSetByteMinutesAlarm v s
  | .setByteHours v => Sys2Proof.Machine.execSetByteHours v s
  | .setByteHoursAlarm v => Sys2Proof.Machine.execSetByteHoursAlarm v s
  | .setByteDayOfWeek v => Sys2Proof.Machine.execSetByteDayOfWeek v s
  | .setByteDayOfMonth v => Sys2Proof.Machine.execSetByteDayOfMonth v s
  | .setByteMonth v => Sys2Proof.Machine.execSetByteMonth v s
  | .setByteYear v => Sys2Proof.Machine.execSetByteYear v s
  | .setByteRegA v => Sys2Proof.Machine.execSetByteRegA v s
  | .setByteRegB v => Sys2Proof.Machine.execSetByteRegB v s
  | .setByteRegC v => Sys2Proof.Machine.execSetByteRegC v s
  | .setByteRegD v => Sys2Proof.Machine.execSetByteRegD v s
  | .setByteNvram0E idx v => Sys2Proof.Machine.execSetByteNvram0E idx v s
  | .setByteNvram10 idx v => Sys2Proof.Machine.execSetByteNvram10 idx v s
  | .setByteNvram20 idx v => Sys2Proof.Machine.execSetByteNvram20 idx v s
  | .setByteNvram40 idx v => Sys2Proof.Machine.execSetByteNvram40 idx v s
  | .setByteNvram80 idx v => Sys2Proof.Machine.execSetByteNvram80 idx v s
  | .getByteSeconds => Sys2Proof.Machine.execGetByteSeconds s
  | .getByteSecondsAlarm => Sys2Proof.Machine.execGetByteSecondsAlarm s
  | .getByteMinutes => Sys2Proof.Machine.execGetByteMinutes s
  | .getByteMinutesAlarm => Sys2Proof.Machine.execGetByteMinutesAlarm s
  | .getByteHours => Sys2Proof.Machine.execGetByteHours s
  | .getByteHoursAlarm => Sys2Proof.Machine.execGetByteHoursAlarm s
  | .getByteDayOfWeek => Sys2Proof.Machine.execGetByteDayOfWeek s
  | .getByteDayOfMonth => Sys2Proof.Machine.execGetByteDayOfMonth s
  | .getByteMonth => Sys2Proof.Machine.execGetByteMonth s
  | .getByteYear => Sys2Proof.Machine.execGetByteYear s
  | .getByteRegA => Sys2Proof.Machine.execGetByteRegA s
  | .getByteRegB => Sys2Proof.Machine.execGetByteRegB s
  | .getByteRegC => Sys2Proof.Machine.execGetByteRegC s
  | .getByteRegD => Sys2Proof.Machine.execGetByteRegD s
  | .getByteNvram0E idx => Sys2Proof.Machine.execGetByteNvram0E idx s
  | .getByteNvram10 idx => Sys2Proof.Machine.execGetByteNvram10 idx s
  | .getByteNvram20 idx => Sys2Proof.Machine.execGetByteNvram20 idx s
  | .getByteNvram40 idx => Sys2Proof.Machine.execGetByteNvram40 idx s
  | .getByteNvram80 idx => Sys2Proof.Machine.execGetByteNvram80 idx s
  | .rstReinj => Sys2Proof.Machine.execRstReinj s
  | .clkReset => Sys2Proof.Machine.execClkReset s
  | .suspend => Sys2Proof.Machine.execSuspend s
  | .resume => Sys2Proof.Machine.execResume s
  | .evPeriodic => Sys2Proof.Machine.execEvPeriodic s
  | .evUpdate => Sys2Proof.Machine.execEvUpdate s
  | .evReinject => Sys2Proof.Machine.execEvReinject s
  | .init => Sys2Proof.Machine.execInit s
  | .teardown => Sys2Proof.Machine.execTeardown s

end Sys2Proof.Machine
end

