-- ==== Sys2Proof/Machine/Fetch.lean ====
section
/-! DEFINITION. Running one request: its transaction word is formed (index resolution, 30_encoding.md R82), decoded
(R81, R102) and executed. A word that does not decode is refused first (60_exceptions.md R306, R309). -/

namespace Sys2Proof.Machine

open Sys2Proof

/-- Decode a transaction word and run it. -/
def runWord (w : TWord) (s : State) : Result :=
  match decode w with
  | .ok i => exec i s
  | .error _ => .refused .reservedWord

/-- Run a request in a state that has accepted it. -/
def runRequest (r : Request) (s : State) : Result :=
  match r.transactionWord s.dev.selectedIndex with
  | some w => runWord w s
  | none => rejectAddress s

/-- One step: the oldest request is accepted and run. With no request presented the block waits, and a step changes
nothing (70_reset_and_hazards.md R353 knows no halted state; log 4). -/
def runNext (s : State) : Result :=
  match s.inputs with
  | [] => .next s
  | r :: rest => runRequest r (s.accept r rest)

end Sys2Proof.Machine
end

