-- ==== Sys2Proof/Machine/Step.lean ====
section
/-! DEFINITION. The step, and the host's way to present one instruction. -/

namespace Sys2Proof.Machine

open Sys2Proof

/-- One step of the machine. -/
def step (s : State) : Host.Outcome State Fault Refusal := runNext s

/-- `s` with the table word `w` of `nbits` bits presented as its next operation (log 5). -/
def State.withFetchWord (s : State) (nbits w : Nat) : State := s.present (BitVec.ofNat 20 (w % 2 ^ nbits))

end Sys2Proof.Machine
end

