-- ==== Sys2Proof/Safety.lean ====
section
/-! DEFINITION. The terms claims are stated in: when an operation is ready to run, the admission table, what an operation
reports, the invariant of reachable states, the agreement of the sink's record with the line, the periods of a
catch-up, and the linear count of seconds of a calendar time. -/

namespace Sys2Proof.Machine

open Sys2Proof

/-- The state admits an operation of phase Running at its time argument: neither common refusal of 40_port_access.md
applies. -/
abbrev State.Ready (s : State) : Prop := s.dev.phase = .running ∧ s.lastNow ≤ s.time

/-- The admission table of 60_exceptions.md R301, column by column. -/
def admitted (p : Phase) (i : Instr) : Bool :=
  match p with
  | .unattached => decide (i = .init)
  | .running => decide (i ≠ .init) && decide (i ≠ .resume)
  | .suspended => decide (i = .resume) || decide (i = .teardown)
  | .tornDown => false

/-- The operations whose time argument is `wall`, 00_scope.md R12. -/
def carriesWall (i : Instr) : Bool := decide (i = .suspend) || decide (i = .resume)

/-- The operations to which the time contract applies, 60_exceptions.md R303. -/
def timeChecked (i : Instr) : Bool :=
  !carriesWall i && decide (i ≠ .init) && decide (i ≠ .clkReset) && decide (i ≠ .teardown)

/-- The three timer events, 60_exceptions.md R319. -/
def isEvent (i : Instr) : Bool := decide (i = .evPeriodic) || decide (i = .evUpdate) || decide (i = .evReinject)

/-- `e` has every field of `d` but the register file. -/
abbrev Device.SameButRegs (d e : Device) : Prop :=
  e.selectedIndex = d.selectedIndex ∧ e.timeBase = d.timeBase ∧ e.nextPeriodicDeadline = d.nextPeriodicDeadline ∧
  e.coalescedCount = d.coalescedCount ∧ e.reinjectPending = d.reinjectPending ∧ e.phase = d.phase ∧
  e.suspendRecord = d.suspendRecord

/-- The two device records read alike at every register but those of `is`. -/
abbrev Device.SameRegsBut (is : List Byte) (d e : Device) : Prop := ∀ j : Byte, j ∉ is → e.reg j = d.reg j

/-- What an operation that leads from `s` to `t` reports (00_scope.md R17, 40_port_access.md R133, 47_platform_ops.md
R284) and what it leaves beside the device record: the result byte `ret`, the edge of the line, the sink's record, and
the configuration, the inputs and the time argument as they were. -/
abbrev Reports (s t : State) (ret : Option Byte) : Prop :=
  t.ret = ret ∧ t.edge = edgeOf s.dev.line t.dev.line ∧ t.sink = recordEdge t.edge s.sink ∧
  t.config = s.config ∧ t.inputs = s.inputs ∧ t.time = s.time

/-- `Reports` of an operation that carries `now`, which ends with `lastNow <- now` (60_exceptions.md R303). -/
abbrev ReportsNow (s t : State) (ret : Option Byte) : Prop := Reports s t ret ∧ t.lastNow = s.time

/-- The invariant of reachable states. Memory is canonical. Once INIT has run, the reserved bits read as 10_state.md R53
says, the backlog is bounded (R52), the configuration is well formed (R307) and there is a suspend instant exactly in phase
Suspended (R49). In phases Running and Suspended the periodic timer is armed exactly when its period is not 0 (R54), the
anchor is not in the future (R41, 00_scope.md R12) and the storage of the suspend instant is empty in Running. -/
abbrev State.Inv (s : State) : Prop :=
  Memory.wf s.dev.regs ∧
  (s.dev.phase ≠ .unattached →
    (s.dev.reg regA).getLsbD 7 = false ∧ s.dev.reg regC &&& 0x8F = 0 ∧ s.dev.reg regD = 0x80 ∧
    s.dev.coalescedCount ≤ s.config.coalesceMax ∧ configWellFormed s.config = true ∧
    (s.dev.suspendInstant.isSome = true ↔ s.dev.phase = .suspended)) ∧
  (s.dev.phase = .running ∨ s.dev.phase = .suspended →
    (s.dev.nextPeriodicDeadline = none ↔ s.dev.periodicPeriod = 0) ∧ s.dev.timeBase.ref ≤ s.lastNow ∧
    (s.dev.phase = .running → s.dev.suspendRecord = none))

/-- A sink record, newest first, is what a line that was low at INIT and is now at `level` has given: asserts and
deasserts alternate, the oldest is an assert, and the newest agrees with the level (47_platform_ops.md R284). -/
def sinkAgrees : List Edge → Bool → Bool
  | [], level => !level
  | .assert :: older, level => level && sinkAgrees older false
  | .deassert :: older, level => !level && sinkAgrees older true

/-- Once INIT has run, the sink's record agrees with the line. -/
abbrev State.SinkInv (s : State) : Prop := s.dev.phase ≠ .unattached → sinkAgrees s.sink s.dev.line = true

/-- The device record after `k` update fires each delivered exactly when it falls due, 45_lost_tick.md R245. -/
def onTimeFires (c : Config) (d : Device) : Nat → Device
  | 0 => d
  | k + 1 => (onTimeFires c d k).fireUpdate c ((onTimeFires c d k).nextUpdateDeadline c)

/-- The Gregorian rule for an absolute year, 41_codec.md R158. -/
abbrev gregorianLeap (y : Nat) : Prop := y % 4 = 0 ∧ (y % 100 ≠ 0 ∨ y % 400 = 0)

/-- The lengths of the twelve months of a year, 41_codec.md R159. -/
def monthLengths (y : Nat) : List Nat :=
  [31, if gregorianLeap y then 29 else 28, 31, 30, 31, 30, 31, 31, 30, 31, 30, 31]

/-- The seconds from 1 January 00:00:00 of year offset 0 to a valid calendar time: whole years, whole months, days, and
the time of day. It speaks of neither `tick1` nor `daysInMonth` nor `isLeap`. -/
def secondsSinceBase (baseYear : Nat) (c : CalTime) : Nat :=
  let years := ((List.range c.year).map (fun k => (monthLengths (baseYear + k)).sum)).sum
  let months := ((monthLengths (baseYear + c.year)).take (c.mon - 1)).sum
  (((years + months + (c.mday - 1)) * 24 + c.hour) * 60 + c.min) * 60 + c.sec

end Sys2Proof.Machine
end

