-- ==== Sys2Proof/Certificates/Slice0/Obligations.lean ====
section
/-! DEFINITION. The statements for the provers, each a Prop; OBLIGATIONS.json says what rule of the spec each rests on. -/

open Sys2Proof Sys2Proof.Machine

/-- Decoding the encoding of a well-formed instruction gives it back. Rests on: 30_encoding.md section 1 (rules R80,
R81, R82, R84). -/
def Obligations.DecodeOfEncodeIsTheInstruction : Prop :=
  ∀ i : Instr, i.wellFormed = true → decode (encode i) = .ok i

/-- A word that decodes has one instruction and is its encoding. Rests on: 30_encoding.md section 1 (rules R80, R81,
R84). -/
def Obligations.EncodeOfDecodeIsTheWord : Prop :=
  ∀ (w : TWord) (i : Instr), decode w = .ok i → i.wellFormed = true ∧ encode i = w

/-- The reserved words, and no others, are refused as ReservedWord. Rules: R102. -/
def Obligations.ReservedWordsAndOnlyTheyAreRefused : Prop :=
  (∀ (s : State) (w : TWord) (time : Nat) (rest : List Request), s.inputs = .word w time :: rest →
    (opField w = 0xF ∨
     (opField w ∉ [0x2, 0x3, 0x4, 0x5] ∧ idxField w ≠ 0) ∨
     (opField w ∉ [0x0, 0x2, 0x4] ∧ dataField w ≠ 0)) →
    step s = .refused .reservedWord) ∧
  (∀ w : TWord,
    opField w ≠ 0xF →
    (opField w ∉ [0x2, 0x3, 0x4, 0x5] → idxField w = 0) →
    (opField w ∉ [0x0, 0x2, 0x4] → dataField w = 0) →
    ∃ i, decode w = .ok i)

/-- Words written out from the spec decode to their operations. Rests on: 30_encoding.md section 1 (rules R80, R81);
95_test_vectors.md (TW columns of V40-1, V40-2, V44-1, V47-3, P5). -/
def Obligations.SampleWordsDecode : Prop :=
  decode 0x0000D = .ok (.idxWr 0x0D) ∧ decode 0x10000 = .ok .idxRd ∧ decode 0x20AAF = .ok (.datWrRegA 0xAF) ∧
  decode 0x27F22 = .ok (.datWrNvram40 0x7F 0x22) ∧ decode 0x30C00 = .ok .datRdRegC ∧
  decode 0x43D01 = .ok (.setByteNvram20 0x3D 0x01) ∧ decode 0x50A00 = .ok .getByteRegA ∧
  decode 0x60000 = .ok .rstReinj ∧ decode 0x70000 = .ok .clkReset ∧ decode 0x80000 = .ok .suspend ∧
  decode 0x90000 = .ok .resume ∧ decode 0xA0000 = .ok .evPeriodic ∧ decode 0xB0000 = .ok .evUpdate ∧
  decode 0xC0000 = .ok .evReinject ∧ decode 0xD0000 = .ok .init ∧ decode 0xE0000 = .ok .teardown

/-- A step runs the decoded instruction of the oldest request. Rests on: 30_encoding.md section 1 (rules R80, R82);
20_memory.md section 3 (rule R70). The inputs list and the field that latches the time argument are the model's form
of the total order of operations, log 4 and log 6. -/
def Obligations.StepRunsTheDecodedInstruction : Prop :=
  ∀ (s : State) (w : TWord) (time : Nat) (rest : List Request) (i : Instr),
    s.inputs = .word w time :: rest → decode (resolveIndex s.dev.selectedIndex w) = .ok i →
    step s = exec i { s with inputs := rest, time := time }

/-- Data-port accesses act on the selected index, direct accesses on their address. Rests on: 30_encoding.md section
1 (rule R82); 20_memory.md section 3 (rule R70); 47_platform_ops.md section 2 (rules R281, R282). That the idx field
a data-port word carries is ignored is the model's reading of R82, log 8. -/
def Obligations.DataPortWordsUseTheSelectedIndex : Prop :=
  ∀ (s : State) (rest : List Request) (idx v : Byte) (now addr : Nat),
    (s.inputs = .word (mkWord 0x2 idx v) now :: rest →
      step s = exec (decodeDatWr s.dev.selectedIndex v) { s with inputs := rest, time := now }) ∧
    (s.inputs = .word (mkWord 0x3 idx 0x00) now :: rest →
      step s = exec (decodeDatRd s.dev.selectedIndex) { s with inputs := rest, time := now }) ∧
    (s.inputs = .setCmosByte addr v now :: rest → addr < 256 →
      step s = exec (decodeSetByte (BitVec.ofNat 8 addr) v) { s with inputs := rest, time := now }) ∧
    (s.inputs = .getCmosByte addr now :: rest → addr < 256 →
      step s = exec (decodeGetByte (BitVec.ofNat 8 addr)) { s with inputs := rest, time := now })

/-- A direct access with addr above 0xFF is refused as AddrOutOfRange. Rests on: 60_exceptions.md section 1 (rules
R301, R302, R303, R309); 47_platform_ops.md section 2 (rules R281, R282); notes/assumptions/14.md: the call with a
natural-number address is the model's reading. That an address is a natural number of a functional call, refused
after the phase and the time checks, is the model's reading (DEDUCED), log 14. -/
def Obligations.OutOfRangeAddressIsRefused : Prop :=
  (∀ (s : State) (rest : List Request) (addr now : Nat) (v : Byte), 256 ≤ addr →
    (s.inputs = .setCmosByte addr v now :: rest ∨ s.inputs = .getCmosByte addr now :: rest) →
    (s.dev.phase ≠ .running → step s = .refused .wrongPhase) ∧
    (s.dev.phase = .running → now < s.lastNow → step s = .refused .timeWentBack) ∧
    (s.dev.phase = .running → s.lastNow ≤ now → step s = .refused .addrOutOfRange)) ∧
  (∀ (s : State) (rest : List Request) (w : TWord) (time : Nat), s.inputs = .word w time :: rest →
    step s ≠ .refused .addrOutOfRange)

/-- Each operation is admitted in its phases and refused as WrongPhase elsewhere. Rules: R301. -/
def Obligations.PhaseAdmissionTable : Prop :=
  ∀ (i : Instr) (s : State),
    (admitted s.dev.phase i = false → exec i s = .refused .wrongPhase) ∧
    (admitted s.dev.phase i = true → exec i s ≠ .refused .wrongPhase)

/-- An operation whose now is before lastNow is refused as TimeWentBack. Rules: R303. -/
def Obligations.TimeContract : Prop :=
  ∀ (i : Instr) (s : State), admitted s.dev.phase i = true →
    (timeChecked i = true → (s.time < s.lastNow ↔ exec i s = .refused .timeWentBack)) ∧
    (timeChecked i = false → exec i s ≠ .refused .timeWentBack) ∧
    (∀ t, exec i s = .next t → t.lastNow = if carriesWall i then s.lastNow else s.time)

/-- A timer event is refused as NotEnabled exactly when it is not enabled. Rests on: 60_exceptions.md section 1
(rule R304); 42_periodic.md section 2 (rule R182); 43_update_alarm.md section 1 (rule R200); 44_coalescing.md
section 2 (rule R223); 10_state.md section 6 (rule R42); notes/assumptions/23.md: the update deadline after a RESUME
under Slew is the model's choice. The clause about EV_UPDATE in the one case after a RESUME under Slew where the
deadline has moved later is the model's choice (DEDUCED, unsafe): R42 is followed and the "stay enabled" of
46_suspend_reset.md R263 read as not cancelled, log 23. -/
def Obligations.TimerEventsRefusedWhenNotEnabled : Prop :=
  ∀ s : State, s.Ready →
    (exec .evPeriodic s = .refused .notEnabled ↔
      s.dev.nextPeriodicDeadline = none ∨ ∃ dl, s.dev.nextPeriodicDeadline = some dl ∧ s.time < dl) ∧
    (exec .evUpdate s = .refused .notEnabled ↔ s.time < s.dev.nextUpdateDeadline s.config) ∧
    (exec .evReinject s = .refused .notEnabled ↔ s.dev.reinjectPending = false)

/-- INIT with an ill-formed configuration is refused as IllFormedConfig. Rules: R307. -/
def Obligations.IllFormedConfigurationIsRefused : Prop :=
  ∀ s : State, s.dev.phase = .unattached →
    (exec .init s = .refused .illFormedConfig ↔
      ¬(1 ≤ s.config.slewInterval ∧ s.config.slewInterval ≤ 32767 ∧
        validTime s.config.baseYear s.config.initTime = true))

/-- No operand is illegal: every operation but the gated ones completes. Rules: R103. -/
def Obligations.RunningOperationsComplete : Prop :=
  ∀ (i : Instr) (s : State), s.Ready → i ≠ .init → i ≠ .resume → isEvent i = false → ∃ t, exec i s = .next t

/-- IDX_WR stores all eight bits as the selected index and nothing else. Rules: R120. -/
def Obligations.IndexSelectWriteStoresTheIndex : Prop :=
  ∀ v : Byte, decode (mkWord 0x0 0x00 v) = .ok (.idxWr v) ∧ ∀ s : State, s.Ready →
    ∃ t, exec (.idxWr v) s = .next t ∧ t.dev = { s.dev with selectedIndex := v } ∧ t.edge = none ∧ ReportsNow s t none

/-- IDX_RD returns 0xFF and changes nothing. Rules: R121. -/
def Obligations.IndexSelectReadReturnsFF : Prop :=
  decode 0x10000 = .ok .idxRd ∧ ∀ s : State, s.Ready →
    ∃ t, exec .idxRd s = .next t ∧ t.dev = s.dev ∧ t.edge = none ∧ ReportsNow s t (some 0xFF)

/-- A write of a TIME or ALARM register stores the byte and does nothing else. Rests on: 40_port_access.md section 2
(rules R124, R125); 47_platform_ops.md section 2 (rule R281); 20_memory.md section 2 (rule R68). -/
def Obligations.TimeAndAlarmWritesStoreTheByte : Prop :=
  ∀ (v : Byte) (s : State), s.Ready →
    ∀ p ∈ ([(.datWrSeconds v, regSeconds), (.datWrSecondsAlarm v, regSecondsAlarm), (.datWrMinutes v, regMinutes),
        (.datWrMinutesAlarm v, regMinutesAlarm), (.datWrHours v, regHours),
        (.datWrHoursAlarm v, regHoursAlarm), (.datWrDayOfWeek v, regDayOfWeek),
        (.datWrDayOfMonth v, regDayOfMonth), (.datWrMonth v, regMonth), (.datWrYear v, regYear),
        (.setByteSeconds v, regSeconds), (.setByteSecondsAlarm v, regSecondsAlarm),
        (.setByteMinutes v, regMinutes), (.setByteMinutesAlarm v, regMinutesAlarm),
        (.setByteHours v, regHours), (.setByteHoursAlarm v, regHoursAlarm),
        (.setByteDayOfWeek v, regDayOfWeek), (.setByteDayOfMonth v, regDayOfMonth),
        (.setByteMonth v, regMonth), (.setByteYear v, regYear)] :
        List (Instr × Byte)),
      ∃ t, exec p.1 s = .next t ∧ t.dev.reg p.2 = v ∧ s.dev.SameRegsBut [p.2] t.dev ∧ s.dev.SameButRegs t.dev ∧
        t.edge = none ∧ ReportsNow s t none

/-- A write of an NVRAM register stores the byte and does nothing else. Rests on: 40_port_access.md section 2 (rule
R126); 47_platform_ops.md section 2 (rule R281). -/
def Obligations.NvramWritesStoreTheByte : Prop :=
  ∀ (idx v : Byte) (s : State), s.Ready →
    ∀ i ∈ ([.datWrNvram0E idx v, .datWrNvram10 idx v, .datWrNvram20 idx v, .datWrNvram40 idx v,
        .datWrNvram80 idx v, .setByteNvram0E idx v, .setByteNvram10 idx v, .setByteNvram20 idx v,
        .setByteNvram40 idx v, .setByteNvram80 idx v] : List Instr),
      i.wellFormed = true →
      ∃ t, exec i s = .next t ∧ t.dev.reg idx = v ∧ s.dev.SameRegsBut [idx] t.dev ∧ s.dev.SameButRegs t.dev ∧
        t.edge = none ∧ ReportsNow s t none

/-- A write of control register C or D changes nothing. Rules: R127. -/
def Obligations.ControlCAndDWritesAreIgnored : Prop :=
  ∀ (v : Byte) (s : State), s.Ready →
    ∀ i ∈ ([.datWrRegC v, .datWrRegD v, .setByteRegC v, .setByteRegD v] : List Instr),
      ∃ t, exec i s = .next t ∧ t.dev = s.dev ∧ t.edge = none ∧ ReportsNow s t none

/-- A write of control register B stores eight bits and re-evaluates the line. Rests on: 40_port_access.md sections
2 and 4 (rules R128, R133); 70_reset_and_hazards.md section 3 (rule R347); 47_platform_ops.md section 2 (rule R281);
notes/assumptions/24.md: a second assert before the acknowledgment is the model's choice. The assert of a write that
sets PIE again while PF is pending, a second one before the acknowledgment, is the model's choice (DEDUCED, unsafe):
R128, R133 and R347 are followed where 44_coalescing.md R227 says that no operation produces another assert, log 24.
-/
def Obligations.ControlBWriteMovesTheLineAtOnce : Prop :=
  ∀ (v : Byte) (s : State), s.Ready →
    ∀ i ∈ ([.datWrRegB v, .setByteRegB v] : List Instr),
      ∃ t, exec i s = .next t ∧ t.dev.reg regB = v ∧ s.dev.SameRegsBut [regB] t.dev ∧ s.dev.SameButRegs t.dev ∧
        (t.dev.line = true ↔ s.dev.reg regC &&& v &&& 0x70 ≠ 0) ∧
        (t.edge = some .assert ↔ s.dev.line = false ∧ s.dev.reg regC &&& v &&& 0x70 ≠ 0) ∧
        (t.edge = some .deassert ↔ s.dev.line = true ∧ s.dev.reg regC &&& v &&& 0x70 = 0) ∧
        ReportsNow s t none

/-- A write of control register A stores seven bits and restarts the periodic timer. Rests on: 42_periodic.md
section 1 (rule R180); 30_encoding.md section 3 (rule R100); 47_platform_ops.md section 2 (rule R281). -/
def Obligations.ControlAWriteRestartsThePeriodicTimer : Prop :=
  ∀ (v : Byte) (s : State), s.Ready →
    ∀ i ∈ ([.datWrRegA v, .setByteRegA v] : List Instr),
      ∃ t, exec i s = .next t ∧ t.dev.reg regA = v &&& 0x7F ∧ s.dev.SameRegsBut [regA] t.dev ∧
        t.dev.nextPeriodicDeadline =
          (if v &&& 0x0F = 0 then none
           else some (s.time + [0, 128, 256, 4, 8, 16, 32, 64, 128, 256, 512, 1024, 2048, 4096, 8192, 16384].getD
             (v &&& 0x0F).toNat 0)) ∧
        t.dev.selectedIndex = s.dev.selectedIndex ∧ t.dev.timeBase = s.dev.timeBase ∧
        t.dev.coalescedCount = s.dev.coalescedCount ∧ t.dev.reinjectPending = s.dev.reinjectPending ∧
        t.dev.phase = s.dev.phase ∧ t.dev.suspendRecord = s.dev.suspendRecord ∧
        t.edge = none ∧ ReportsNow s t none

/-- A read of a TIME, ALARM, control A or B register returns the stored byte and changes nothing. Rests on:
40_port_access.md section 3 (rules R129, R130, R131); 47_platform_ops.md section 2 (rule R282); 20_memory.md section
2 (rules R67, R69). -/
def Obligations.StoredRegisterReadsArePure : Prop :=
  ∀ s : State, s.Ready →
    ∀ p ∈ ([(.datRdSeconds, regSeconds), (.datRdSecondsAlarm, regSecondsAlarm), (.datRdMinutes, regMinutes),
        (.datRdMinutesAlarm, regMinutesAlarm), (.datRdHours, regHours), (.datRdHoursAlarm, regHoursAlarm),
        (.datRdDayOfWeek, regDayOfWeek), (.datRdDayOfMonth, regDayOfMonth), (.datRdMonth, regMonth),
        (.datRdYear, regYear), (.datRdRegA, regA), (.datRdRegB, regB), (.getByteSeconds, regSeconds),
        (.getByteSecondsAlarm, regSecondsAlarm), (.getByteMinutes, regMinutes),
        (.getByteMinutesAlarm, regMinutesAlarm), (.getByteHours, regHours),
        (.getByteHoursAlarm, regHoursAlarm), (.getByteDayOfWeek, regDayOfWeek),
        (.getByteDayOfMonth, regDayOfMonth), (.getByteMonth, regMonth), (.getByteYear, regYear),
        (.getByteRegA, regA), (.getByteRegB, regB)] :
        List (Instr × Byte)),
      ∃ t, exec p.1 s = .next t ∧ t.dev = s.dev ∧ t.edge = none ∧ ReportsNow s t (some (s.dev.reg p.2))

/-- A read of an NVRAM register returns the stored byte and changes nothing. Rests on: 40_port_access.md section 3
(rule R129); 47_platform_ops.md section 2 (rule R282). -/
def Obligations.NvramReadsArePure : Prop :=
  ∀ (idx : Byte) (s : State), s.Ready →
    ∀ i ∈ ([.datRdNvram0E idx, .datRdNvram10 idx, .datRdNvram20 idx, .datRdNvram40 idx, .datRdNvram80 idx,
        .getByteNvram0E idx, .getByteNvram10 idx, .getByteNvram20 idx, .getByteNvram40 idx, .getByteNvram80 idx] : List Instr),
      i.wellFormed = true →
      ∃ t, exec i s = .next t ∧ t.dev = s.dev ∧ t.edge = none ∧ ReportsNow s t (some (s.dev.reg idx))

/-- A read of control register D returns 0x80. Rules: R132. -/
def Obligations.ControlDReads80 : Prop :=
  ∀ s : State, s.Ready →
    ∀ i ∈ ([.datRdRegD, .getByteRegD] : List Instr),
      ∃ t, exec i s = .next t ∧ t.dev = s.dev ∧ t.edge = none ∧ ReportsNow s t (some 0x80)

/-- GET_BYTE at 0x0C returns the status byte and clears nothing. Rests on: 43_update_alarm.md section 3 (rule R203);
47_platform_ops.md section 2 (rule R282). -/
def Obligations.GetByteOfStatusClearsNothing : Prop :=
  ∀ s : State, s.Ready →
    ∃ t, exec .getByteRegC s = .next t ∧ t.dev = s.dev ∧ t.edge = none ∧
      ReportsNow s t (some ((if s.dev.line then 0x80 else 0x00) ||| (s.dev.reg regC &&& 0x70)))

/-- DAT_RD at 0x0C returns the flags, clears them, acknowledges and lowers the line. Rests on: 43_update_alarm.md
section 3 (rules R203, R204); 44_coalescing.md section 2 (rule R222); 60_exceptions.md section 3 (rule R315). -/
def Obligations.StatusReadReturnsAndClearsTheFlags : Prop :=
  ∀ s : State, s.Ready →
    ∃ t, exec .datRdRegC s = .next t ∧ t.dev.reg regC = 0x00 ∧ s.dev.SameRegsBut [regC] t.dev ∧
      t.dev.coalescedCount = s.dev.coalescedCount - 1 ∧
      t.dev.reinjectPending = (decide (0 < s.dev.coalescedCount) || s.dev.reinjectPending) ∧
      t.dev.line = false ∧ t.edge = (if s.dev.line then some .deassert else none) ∧
      t.dev.selectedIndex = s.dev.selectedIndex ∧ t.dev.timeBase = s.dev.timeBase ∧
      t.dev.nextPeriodicDeadline = s.dev.nextPeriodicDeadline ∧ t.dev.phase = s.dev.phase ∧
      t.dev.suspendRecord = s.dev.suspendRecord ∧
      ReportsNow s t (some ((if s.dev.line then 0x80 else 0x00) ||| (s.dev.reg regC &&& 0x70)))

/-- A second status read with no event between returns zero and gives no edge. Rests on: 43_update_alarm.md section
3 (rule R204); 95_test_vectors.md section 1 (property T3). -/
def Obligations.SecondStatusReadReturnsZero : Prop :=
  ∀ s t u : State, exec .datRdRegC s = .next t → u.dev = t.dev → u.Ready →
    ∃ w, exec .datRdRegC u = .next w ∧ w.ret = some 0x00 ∧ w.edge = none ∧ w.dev.reg regC = 0x00

/-- RST_REINJ zeroes the backlog and cancels the reinjection, and nothing else. Rests on: 44_coalescing.md section 3
(rule R225). -/
def Obligations.ReinjectionResetDropsTheBacklog : Prop :=
  ∀ s : State, s.Ready →
    ∃ t, exec .rstReinj s = .next t ∧ t.dev = { s.dev with coalescedCount := 0, reinjectPending := false } ∧
      t.edge = none ∧ ReportsNow s t none

/-- INIT leaves the state of the reset table, whatever stood there before. Rests on: 70_reset_and_hazards.md section
1 (rule R340); 47_platform_ops.md section 1 (rule R280); notes/assumptions/10.md: no edge and no result whatever
stood there before is the model's reading. That ret and edge are none whatever the line was before is R280, chosen
over 40_port_access.md R133: the model's reading (DEDUCED), log 10. -/
def Obligations.InitLeavesTheResetTable : Prop :=
  ∀ s : State, s.dev.phase = .unattached → configWellFormed s.config = true →
    ∃ t, exec .init s = .next t ∧
      (∀ p ∈ [(regSeconds, s.config.initTime.sec), (regMinutes, s.config.initTime.min),
          (regDayOfWeek, s.config.initTime.dow), (regDayOfMonth, s.config.initTime.mday),
          (regMonth, s.config.initTime.mon), (regYear, s.config.initTime.year)],
        t.dev.reg p.1 = encField p.2 (s.config.initRegB.getLsbD 2)) ∧
      t.dev.reg regHours =
        encodeHour s.config.initTime.hour (s.config.initRegB.getLsbD 2) (s.config.initRegB.getLsbD 1) ∧
      (∀ j : Byte, (j ∈ [regSecondsAlarm, regMinutesAlarm, regHoursAlarm] ∨ 0x0E ≤ j) →
        t.dev.reg j = Memory.read s.config.initImage j.toNat) ∧
      t.dev.reg regA = s.config.initRegA &&& 0x7F ∧ t.dev.reg regB = s.config.initRegB ∧
      t.dev.reg regC = 0x00 ∧ t.dev.reg regD = 0x80 ∧ t.dev.selectedIndex = 0x00 ∧
      t.dev.timeBase = { ref := s.time, off := 0 } ∧
      t.dev.nextPeriodicDeadline =
        (if rateTable (rateSelect s.config.initRegA) = 0 then none
         else some (s.time + rateTable (rateSelect s.config.initRegA))) ∧
      t.dev.nextUpdateDeadline t.config = s.time + 32768 ∧
      t.dev.coalescedCount = 0 ∧ t.dev.reinjectPending = false ∧ t.dev.suspendRecord = none ∧
      t.dev.suspendInstant = none ∧ t.dev.phase = .running ∧ t.dev.line = false ∧ t.lastNow = s.time ∧ t.ret = none ∧ t.edge = none ∧
      t.config = s.config ∧ t.inputs = s.inputs ∧ t.time = s.time

/-- The model's reset state is what INIT leaves at tick 0 (model's choice: logs 1, 2). Rests on:
70_reset_and_hazards.md section 1 (R340); notes/assumptions/1.md and 2.md: the instant 0 and the configuration are
the model's choice. -/
def Obligations.ResetIsInitAtTickZero : Prop :=
  ∀ s : State, s.dev.phase = .unattached → s.config = Config.atReset → s.time = 0 → s.inputs = [] →
    exec .init s = .next State.reset

/-- TEARDOWN disarms the timers and leaves the rest, at any now. Rests on: 47_platform_ops.md section 3 (rule R283);
60_exceptions.md section 1 (rule R303); 10_state.md section 6 (rule R49); notes/assumptions/11.md, 12.md and 22.md:
lastNow, suspendInstant and reinjectPending after TEARDOWN are the model's reading. Three clauses are the model's
reading (DEDUCED) where rules differ: suspendInstant is a view that reads none outside Suspended (R49) over a
storage that TEARDOWN leaves as it is (R283) (log 12); reinjectPending false is R283 though 44_coalescing.md R226
does not list it as a writer (log 22); lastNow is R303 (log 11). -/
def Obligations.TeardownCancelsTheTimers : Prop :=
  ∀ s : State, (s.dev.phase = .running ∨ s.dev.phase = .suspended) →
    ∃ t, exec .teardown s = .next t ∧
      t.dev =
        { s.dev with
          nextPeriodicDeadline := none
          reinjectPending := false
          phase := .tornDown } ∧
      t.dev.suspendInstant = none ∧ t.edge = none ∧ ReportsNow s t none

/-- CLK_RESET re-anchors the time base at any now and restarts the periodic timer. Rests on: 46_suspend_reset.md
section 2 (rule R260). -/
def Obligations.ClockResetReanchors : Prop :=
  ∀ s : State, s.dev.phase = .running →
    ∃ t, exec .clkReset s = .next t ∧
      t.dev =
        { s.dev with
          timeBase := { ref := s.time, off := s.dev.timeBase.off }
          nextPeriodicDeadline :=
            if s.dev.periodicPeriod = 0 then none else some (s.time + s.dev.periodicPeriod) } ∧
      t.edge = none ∧ ReportsNow s t none

/-- SUSPEND records the wall instant and enters phase Suspended. Rules: R261. -/
def Obligations.SuspendRecordsTheWallInstant : Prop :=
  decode 0x80000 = .ok .suspend ∧ ∀ s : State,
    (s.dev.phase = .running →
      ∃ t, exec .suspend s = .next t ∧
        t.dev = { s.dev with suspendRecord := some s.time, phase := .suspended } ∧
        t.dev.suspendInstant = some s.time ∧
        t.edge = none ∧ t.lastNow = s.lastNow ∧ Reports s t none) ∧
    (s.dev.phase ≠ .running → exec .suspend s = .refused .wrongPhase)

/-- RESUME adds the suspended wall time to the owed time unless it is frozen. Rests on: 46_suspend_reset.md section
3 (rule R262). -/
def Obligations.ResumeCreditsTheSuspendedTime : Prop :=
  ∀ (s : State) (began : Nat), s.dev.phase = .suspended → s.dev.suspendInstant = some began →
    ∃ t, exec .resume s = .next t ∧
      t.dev =
        { s.dev with
          timeBase :=
            { ref := s.dev.timeBase.ref
              off := s.dev.timeBase.off + if s.config.suspendFrozen then 0 else s.time - began }
          suspendRecord := none
          phase := .running } ∧
      t.dev.suspendInstant = none ∧
      t.edge = none ∧ t.lastNow = s.lastNow ∧ Reports s t none

/-- CLK_RESET, SUSPEND and RESUME write no register and do not lower timeBase.off. Rests on: 46_suspend_reset.md
section 3 (rule R265). It speaks of timeBase.off and not of owed(now) of 10_state.md R41, from which CLK_RESET drops
what had elapsed since ref (R260). -/
def Obligations.AdaptersNeverMoveTheClockBack : Prop :=
  ∀ i ∈ ([.clkReset, .suspend, .resume] : List Instr), ∀ s t : State, exec i s = .next t →
    (∀ j : Byte, t.dev.reg j = s.dev.reg j) ∧ t.dev.decodeTime = s.dev.decodeTime ∧
    s.dev.timeBase.off ≤ t.dev.timeBase.off

/-- EV_PERIODIC sets PF, counts what it merges and keeps the deadline on the grid. Rests on: 42_periodic.md section
2 (rules R182, R183, R184, R185); 44_coalescing.md section 1 (rules R220, R221). -/
def Obligations.PeriodicFireCountsElapsedPeriods : Prop :=
  ∀ (s : State) (dl : Nat), s.Ready → s.dev.nextPeriodicDeadline = some dl → dl ≤ s.time → s.dev.periodicPeriod ≠ 0 →
    ∃ t n, exec .evPeriodic s = .next t ∧ n = (s.time - dl) / s.dev.periodicPeriod + 1 ∧
      t.dev.nextPeriodicDeadline = some (dl + n * s.dev.periodicPeriod) ∧
      s.time < dl + n * s.dev.periodicPeriod ∧ dl + (n - 1) * s.dev.periodicPeriod ≤ s.time ∧
      t.dev.reg regC = s.dev.reg regC ||| 0x40 ∧ s.dev.SameRegsBut [regC] t.dev ∧
      t.dev.coalescedCount =
        (if s.dev.pie then min s.config.coalesceMax (s.dev.coalescedCount + (if s.dev.pf then n else n - 1))
         else s.dev.coalescedCount) ∧
      t.edge = (if s.dev.pie && !s.dev.line then some .assert else none) ∧
      t.dev.selectedIndex = s.dev.selectedIndex ∧ t.dev.timeBase = s.dev.timeBase ∧
      t.dev.reinjectPending = s.dev.reinjectPending ∧ t.dev.phase = s.dev.phase ∧
      t.dev.suspendRecord = s.dev.suspendRecord ∧ ReportsNow s t none

/-- EV_UPDATE advances the time registers, sets UF and AF, and anchors the time base. Rests on: 43_update_alarm.md
sections 1 and 2 (rules R200, R201, R202, R205, R206); 45_lost_tick.md section 1 (rule R241); 41_codec.md sections 2
to 5 (rules R156, R157, R161). -/
def Obligations.UpdateFireAdvancesTheClock : Prop :=
  ∀ s : State, s.Ready → s.dev.nextUpdateDeadline s.config ≤ s.time →
    ∃ t o n c, exec .evUpdate s = .next t ∧ o = s.dev.timeBase.off + (s.time - s.dev.timeBase.ref) ∧
      n = secondsToApply s.config o ∧ c = addSeconds s.config.baseYear s.dev.decodeTime n ∧
      t.dev.reg regSeconds = encField c.sec s.dev.dm ∧ t.dev.reg regMinutes = encField c.min s.dev.dm ∧
      t.dev.reg regDayOfWeek = encField c.dow s.dev.dm ∧ t.dev.reg regDayOfMonth = encField c.mday s.dev.dm ∧
      t.dev.reg regMonth = encField c.mon s.dev.dm ∧ t.dev.reg regYear = encField c.year s.dev.dm ∧
      t.dev.reg regHours = encodeHour c.hour s.dev.dm s.dev.h24 ∧
      t.dev.reg regC = s.dev.reg regC ||| 0x10 ||| (if t.dev.alarmMatches then 0x20 else 0x00) ∧
      s.dev.SameRegsBut [regSeconds, regMinutes, regHours, regDayOfWeek, regDayOfMonth, regMonth, regYear, regC] t.dev ∧
      t.dev.timeBase = { ref := s.time, off := o - n * 32768 } ∧
      t.edge = (if t.dev.line && !s.dev.line then some .assert else none) ∧
      t.dev.selectedIndex = s.dev.selectedIndex ∧ t.dev.nextPeriodicDeadline = s.dev.nextPeriodicDeadline ∧
      t.dev.coalescedCount = s.dev.coalescedCount ∧ t.dev.reinjectPending = s.dev.reinjectPending ∧
      t.dev.phase = s.dev.phase ∧ t.dev.suspendRecord = s.dev.suspendRecord ∧ ReportsNow s t none

/-- EV_REINJECT sets PF, or counts the tick again when PF is already set. Rests on: 44_coalescing.md section 2
(rules R223, R224). -/
def Obligations.ReinjectionFireRedeliversOneTick : Prop :=
  ∀ s : State, s.Ready → s.dev.reinjectPending = true →
    ∃ t, exec .evReinject s = .next t ∧ t.dev.reinjectPending = false ∧
      t.dev.reg regC = s.dev.reg regC ||| 0x40 ∧ s.dev.SameRegsBut [regC] t.dev ∧
      t.dev.coalescedCount =
        (if s.dev.pf then min s.config.coalesceMax (s.dev.coalescedCount + 1) else s.dev.coalescedCount) ∧
      t.edge = (if !s.dev.pf && s.dev.pie && !s.dev.line then some .assert else none) ∧
      t.dev.selectedIndex = s.dev.selectedIndex ∧ t.dev.timeBase = s.dev.timeBase ∧
      t.dev.nextPeriodicDeadline = s.dev.nextPeriodicDeadline ∧ t.dev.phase = s.dev.phase ∧
      t.dev.suspendRecord = s.dev.suspendRecord ∧ ReportsNow s t none

/-- Whenever the update fire is due at least one whole second is owed. Rests on: 43_update_alarm.md section 1 (rule
R200); 10_state.md section 6 (rules R41, R42). -/
def Obligations.EnabledUpdateOwesASecond : Prop :=
  ∀ (c : Config) (d : Device) (now : Nat), d.nextUpdateDeadline c ≤ now → 32768 ≤ d.owed now

/-- The lost-tick choice is at least one second and never more than has elapsed. Rests on: 45_lost_tick.md sections
1 to 3 (rules R241, R242, R243). -/
def Obligations.SecondsAppliedHaveElapsed : Prop :=
  ∀ (c : Config) (o : Nat), 32768 ≤ o →
    1 ≤ secondsToApply c o ∧ secondsToApply c o ≤ o / 32768 ∧
    (o - 32768 ≤ 32768 → secondsToApply c o = 1) ∧
    (32768 < o - 32768 → c.lostTickPolicy = .discard → secondsToApply c o = o / 32768) ∧
    (32768 < o - 32768 → c.lostTickPolicy = .slew →
      secondsToApply c o = 1 + ((o / 32768 - 1) - c.slewMaxBacklog))

/-- After a late fire Discard owes less than a second, Slew at most the backlog. Rests on: 45_lost_tick.md sections
2 and 3 (rules R242, R243). -/
def Obligations.LateFireLeavesABoundedDebt : Prop :=
  ∀ s t : State, exec .evUpdate s = .next t → 2 * 32768 < s.dev.owed s.time →
    (s.config.lostTickPolicy = .discard → t.dev.timeBase.off = s.dev.owed s.time % 32768) ∧
    (s.config.lostTickPolicy = .slew → t.dev.timeBase.off / 32768 ≤ s.config.slewMaxBacklog)

/-- A fire late by less than one period leaves the next fire on the one-second grid. Rests on: 45_lost_tick.md
sections 1 and 3 (rules R241, R244); 10_state.md section 6 (rule R42). -/
def Obligations.LateFireWithinToleranceKeepsTheGrid : Prop :=
  ∀ s t : State, exec .evUpdate s = .next t → s.dev.timeBase.off < 32768 → s.dev.timeBase.ref ≤ s.time →
    s.time < s.dev.nextUpdateDeadline s.config + 32768 →
    secondsToApply s.config (s.dev.owed s.time) = 1 ∧
    t.dev.nextUpdateDeadline t.config = s.dev.nextUpdateDeadline s.config + 32768

/-- Under Slew each on-time catch-up fire lowers the debt by ONE_SEC - SLEW_INTERVAL. Rests on: 45_lost_tick.md
section 3 (rules R244, R245). -/
def Obligations.SlewCatchUpConverges : Prop :=
  ∀ (c : Config) (d : Device), c.lostTickPolicy = .slew → 0 < c.slewInterval → c.slewInterval < 32768 →
    d.timeBase.off / 32768 ≤ c.slewMaxBacklog →
    (∀ k, (∀ j < k, 32768 ≤ (onTimeFires c d j).timeBase.off) →
      (onTimeFires c d k).timeBase.off + k * (32768 - c.slewInterval) = d.timeBase.off ∧
      (onTimeFires c d k).timeBase.ref = d.timeBase.ref + k * c.slewInterval) ∧
    ∃ k, k ≤ d.timeBase.off ∧ (onTimeFires c d k).timeBase.off < 32768

/-- An update fire leaves AF set exactly when it was set or all three fields pass. Rests on: 43_update_alarm.md
section 2 (rules R202, R207); 30_encoding.md section 3 (rule R101). -/
def Obligations.AlarmFlagFollowsTheComparison : Prop :=
  ∀ s t : State, exec .evUpdate s = .next t →
    (t.dev.af = true ↔ s.dev.af = true ∨
      ∀ p ∈ [(regSeconds, regSecondsAlarm), (regMinutes, regMinutesAlarm), (regHours, regHoursAlarm)],
        0xC0 ≤ t.dev.reg p.2 ∨ t.dev.reg p.2 = t.dev.reg p.1) ∧
    t.dev.uf = true

/-- EV_UPDATE and EV_PERIODIC due at one instant commute and give one assert. Rests on: 60_exceptions.md section 2
(rule R316). -/
def Obligations.UpdateAndPeriodicFiresCommute : Prop :=
  ∀ (s : State) (dl : Nat), s.Inv → s.Ready → s.dev.nextPeriodicDeadline = some dl → dl ≤ s.time →
    s.dev.nextUpdateDeadline s.config ≤ s.time →
    ∃ t₁ t₂ u₁ u₂, exec .evPeriodic s = .next t₁ ∧ exec .evUpdate t₁ = .next t₂ ∧
      exec .evUpdate s = .next u₁ ∧ exec .evPeriodic u₁ = .next u₂ ∧
      t₂.dev = u₂.dev ∧ t₂.sink = u₂.sink ∧
      t₂.sink = if t₂.dev.line && !s.dev.line then .assert :: s.sink else s.sink

/-- While PF is pending and enabled no operation asserts; REG_B writes (model's choice: log 24) can between them.
Rests on: 44_coalescing.md section 2 (rule R227); 40_port_access.md sections 2 and 4 (rules R128, R133);
70_reset_and_hazards.md section 3 (rule R347); notes/assumptions/24.md: that REG_B writes are excepted is the
model's choice. R227 says that no operation gives another assert before the acknowledgment; that a write of REG_B
which clears PIE and one which sets it again do is R128 and R347, followed by the model's choice (DEDUCED), log 24.
-/
def Obligations.OnePeriodicEdgeOutstanding : Prop :=
  (∀ (i : Instr) (s t : State), i.wellFormed = true → i ≠ .init → i ≠ .datRdRegC →
    (∀ v, i ≠ .datWrRegB v ∧ i ≠ .setByteRegB v) → exec i s = .next t →
    s.dev.pf = true → s.dev.pie = true → t.edge = none ∧ t.dev.pf = true ∧ t.dev.pie = true) ∧
  (∀ (v : Byte) (s : State), s.Ready → s.dev.pf = true →
    ∀ i ∈ ([.datWrRegB v, .setByteRegB v] : List Instr), ∃ t, exec i s = .next t ∧ t.dev.pf = true ∧
      t.dev.pie = v.getLsbD 6 ∧
      (s.dev.pie = true → t.edge ≠ some .assert ∧ (v.getLsbD 6 = true → t.edge = none)) ∧
      (s.dev.line = false → v.getLsbD 6 = true → t.edge = some .assert))

/-- Every step keeps the invariant of reachable states. Rests on: 10_state.md section 7 (rules R51, R52, R53, R54);
10_state.md section 6 (rules R45, R49); 00_scope.md section 6 (rule R11); notes/assumptions/3.md: the canonical form
of the register list is the model's representation. -/
def Obligations.StepKeepsTheInvariant : Prop :=
  ∀ s t : State, s.Inv → step s = .next t → t.Inv

/-- The reset state has the invariant and the sink agrees with the line. Rests on: 70_reset_and_hazards.md section 1
(R340); notes/assumptions/1.md and 2.md. The values of State.reset that the spec leaves OPEN are the model's choice,
log 1 and log 2. -/
def Obligations.ResetHasTheInvariant : Prop :=
  State.reset.Inv ∧ State.reset.SinkInv

/-- The sink invocations of a run alternate, start with assert and agree with the line. Rests on: 47_platform_ops.md
section 4 (rule R284); 40_port_access.md section 4 (rule R133); 10_state.md section 7 (rule R51). -/
def Obligations.StepKeepsTheSinkRecord : Prop :=
  ∀ s t : State, s.SinkInv → step s = .next t → t.SinkInv

/-- No operation but the data-port read of REG_C clears a pending flag. Rests on: 43_update_alarm.md section 3 (rule
R208); 10_state.md section 5 (rule R37); 60_exceptions.md section 2 (rule R311). -/
def Obligations.FlagsAreClearedOnlyByTheStatusRead : Prop :=
  ∀ (i : Instr) (s t : State), i.wellFormed = true → i ≠ .init → i ≠ .datRdRegC → exec i s = .next t →
    (s.dev.pf = true → t.dev.pf = true) ∧ (s.dev.af = true → t.dev.af = true) ∧
    (s.dev.uf = true → t.dev.uf = true)

/-- No operation but IDX_WR and INIT changes the selected index. Rests on: 10_state.md section 4 (rule R23);
70_reset_and_hazards.md section 3 (rule R344). -/
def Obligations.OnlyTheSelectWriteMovesTheIndex : Prop :=
  ∀ (i : Instr) (s t : State), (∀ v, i ≠ .idxWr v) → i ≠ .init → exec i s = .next t →
    t.dev.selectedIndex = s.dev.selectedIndex

/-- Beside TEARDOWN's cancellation (model's reading: log 22), only R226's operations write the backlog. Rests on:
44_coalescing.md section 3 (rule R226); 47_platform_ops.md section 3 (rule R283); notes/assumptions/22.md: that
TEARDOWN writes reinjectPending is the model's reading. R226 lists the coalescer, the acknowledgment, EV_REINJECT,
RST_REINJ and INIT; that TEARDOWN too clears reinjectPending follows R283 over that list, the model's reading
(DEDUCED), log 22. -/
def Obligations.BacklogWriters : Prop :=
  (∀ (i : Instr) (s t : State), i.wellFormed = true →
    i ∉ ([.init, .datRdRegC, .evPeriodic, .evReinject, .rstReinj] : List Instr) → exec i s = .next t →
    t.dev.coalescedCount = s.dev.coalescedCount ∧
    (i ≠ .teardown → t.dev.reinjectPending = s.dev.reinjectPending)) ∧
  (∀ s t : State, exec .evPeriodic s = .next t → t.dev.reinjectPending = s.dev.reinjectPending)

/-- The time registers change only at an update fire, a write of them, or INIT. Rests on: 10_state.md section 7
(rule R55); 40_port_access.md section 3 (rule R129). -/
def Obligations.TimeRegistersMoveOnlyByFireOrWrite : Prop :=
  ∀ (i : Instr) (s t : State), i.wellFormed = true → i ≠ .init → i ≠ .evUpdate →
    (∀ v, i ∉ ([.datWrSeconds v, .datWrMinutes v, .datWrHours v, .datWrDayOfWeek v, .datWrDayOfMonth v, .datWrMonth v,
        .datWrYear v, .setByteSeconds v, .setByteMinutes v, .setByteHours v, .setByteDayOfWeek v,
        .setByteDayOfMonth v, .setByteMonth v, .setByteYear v] :
        List Instr)) → exec i s = .next t →
    ∀ j ∈ [regSeconds, regMinutes, regHours, regDayOfWeek, regDayOfMonth, regMonth, regYear],
      t.dev.reg j = s.dev.reg j

/-- An update fire moves a valid guest time forward by elapsed seconds only. Rests on: 10_state.md section 7 (rule
R55); 41_codec.md sections 4 and 5 (rules R160, R161, R162); 45_lost_tick.md section 4 (rule R247). -/
def Obligations.UpdateFireMovesGuestTimeForward : Prop :=
  ∀ s t : State, exec .evUpdate s = .next t → validTime s.config.baseYear s.dev.decodeTime = true →
    ∃ n, 1 ≤ n ∧ n * 32768 ≤ s.dev.owed s.time ∧
      t.dev.decodeTime = addSeconds s.config.baseYear s.dev.decodeTime n ∧
      validTime s.config.baseYear t.dev.decodeTime = true

/-- No step changes the configuration. Rests on: 00_scope.md section 6 (rule R10); 45_lost_tick.md section 4 (rule
R246); 10_state.md section 6 (rule R47). -/
def Obligations.ConfigurationNeverChanges : Prop :=
  ∀ s t : State, step s = .next t → t.config = s.config

/-- No operation but a write to that index changes an NVRAM register. Rests on: 10_state.md section 2 (rule R32);
41_codec.md section 5 (rule R164). -/
def Obligations.NvramChangesOnlyByItsWrite : Prop :=
  ∀ (i : Instr) (s t : State) (j : Byte), 0x0E ≤ j → i.wellFormed = true → i ≠ .init →
    (∀ v, i ∉ ([.datWrNvram0E j v, .datWrNvram10 j v, .datWrNvram20 j v, .datWrNvram40 j v, .datWrNvram80 j v,
        .setByteNvram0E j v, .setByteNvram10 j v, .setByteNvram20 j v, .setByteNvram40 j v, .setByteNvram80 j v] : List Instr)) →
    exec i s = .next t → t.dev.reg j = s.dev.reg j

/-- Decode after encode returns a valid time in all four modes. Rests on: 41_codec.md section 4 (rule R162);
95_test_vectors.md section 1 (property T1). -/
def Obligations.CodecRoundTrip : Prop :=
  ∀ (baseYear : Nat) (c : CalTime) (d : Device), validTime baseYear c = true → (d.encodeTime c).decodeTime = c

/-- One second after a valid time is a valid time. Rests on: 41_codec.md sections 1 and 5 (rules R150, R160, R163,
R165). -/
def Obligations.TickKeepsTimesValid : Prop :=
  ∀ (baseYear : Nat) (c : CalTime), validTime baseYear c = true → validTime baseYear (tick1 baseYear c) = true

/-- The line is the OR of the three flags, each gated by its enable. Rests on: 10_state.md section 5 (rule R39);
60_exceptions.md section 2 (rule R312). -/
def Obligations.LineIsTheOrOfEnabledFlags : Prop :=
  ∀ d : Device, d.line = (d.pf && d.pie || d.af && d.aie || d.uf && d.uie) ∧ d.statusByte.getLsbD 7 = d.line

/-- The bytes of the codec: nibbles, binary, the hours table, and the modes DM and H24. Rests on: 41_codec.md
sections 2 to 4 (rules R151, R152, R153, R154, R155, R156, R157, R166); 10_state.md section 3 (rule R34). -/
def Obligations.CodecBytes : Prop :=
  (∀ v : Nat, (encField v false).toNat = 16 * (v / 10 % 16) + v % 10 ∧ (encField v true).toNat = v % 256 ∧
    (v ≤ 99 → (encField v false).toNat / 16 = v / 10 ∧ (encField v false).toNat % 16 = v % 10 ∧
      (encField v true).toNat = v)) ∧
  (∀ h < 24,
    encodeHour h false false =
      ([0x12, 0x01, 0x02, 0x03, 0x04, 0x05, 0x06, 0x07, 0x08, 0x09, 0x10, 0x11,
        0x92, 0x81, 0x82, 0x83, 0x84, 0x85, 0x86, 0x87, 0x88, 0x89, 0x90, 0x91] : List Byte).getD h 0x00 ∧
    encodeHour h true false =
      ([0x0C, 0x01, 0x02, 0x03, 0x04, 0x05, 0x06, 0x07, 0x08, 0x09, 0x0A, 0x0B,
        0x8C, 0x81, 0x82, 0x83, 0x84, 0x85, 0x86, 0x87, 0x88, 0x89, 0x8A, 0x8B] : List Byte).getD h 0x00 ∧
    (encodeHour h false true).toNat = 16 * (h / 10) + h % 10 ∧ (encodeHour h true true).toNat = h) ∧
  (∀ (h : Nat) (binary : Bool),
    (encodeHour h binary true).toNat = (encField h binary).toNat % 128 ∧
    (encodeHour h binary false).toNat =
      (encField (if h % 12 = 0 then 12 else h % 12) binary).toNat + (if 12 ≤ h then 128 else 0)) ∧
  (∀ b : Byte,
    decField b true = b.toNat ∧ decField b false = 10 * (b.toNat / 16) + b.toNat % 16 ∧
    decodeHour b true true = b.toNat % 128 ∧ decodeHour b false true = 10 * (b.toNat % 128 / 16) + b.toNat % 16 ∧
    decodeHour b true false = b.toNat % 128 % 12 + (if 128 ≤ b.toNat then 12 else 0) ∧
    decodeHour b false false =
      (10 * (b.toNat % 128 / 16) + b.toNat % 16) % 12 + (if 128 ≤ b.toNat then 12 else 0)) ∧
  (∀ (d : Device) (c : CalTime) (binary h24 : Bool),
    binary = (d.reg 0x0B).getLsbD 2 → h24 = (d.reg 0x0B).getLsbD 1 →
    (d.encodeTime c).reg 0x00 = encField c.sec binary ∧ (d.encodeTime c).reg 0x02 = encField c.min binary ∧
    (d.encodeTime c).reg 0x04 = encodeHour c.hour binary h24 ∧ (d.encodeTime c).reg 0x06 = encField c.dow binary ∧
    (d.encodeTime c).reg 0x07 = encField c.mday binary ∧ (d.encodeTime c).reg 0x08 = encField c.mon binary ∧
    (d.encodeTime c).reg 0x09 = encField c.year binary ∧
    d.SameRegsBut [0x00, 0x02, 0x04, 0x06, 0x07, 0x08, 0x09] (d.encodeTime c) ∧ d.SameButRegs (d.encodeTime c) ∧
    d.decodeTime =
      { sec := decField (d.reg 0x00) binary, min := decField (d.reg 0x02) binary
        hour := decodeHour (d.reg 0x04) binary h24, dow := decField (d.reg 0x06) binary
        mday := decField (d.reg 0x07) binary, mon := decField (d.reg 0x08) binary
        year := decField (d.reg 0x09) binary })

/-- tick1 is one second of the calendar, and carries field by field on every record. Rests on: 41_codec.md section 5
(rules R158, R159, R160, R163, R165); 95_test_vectors.md section 1 (property T7). -/
def Obligations.TickIsOneSecond : Prop :=
  (∀ (baseYear : Nat) (c : CalTime), validTime baseYear c = true →
    secondsSinceBase baseYear (tick1 baseYear c) =
      (if c.sec = 59 ∧ c.min = 59 ∧ c.hour = 23 ∧ c.mday = 31 ∧ c.mon = 12 ∧ c.year = 99 then 0
       else secondsSinceBase baseYear c + 1) ∧
    (tick1 baseYear c).dow = if c.sec = 59 ∧ c.min = 59 ∧ c.hour = 23 then c.dow % 7 + 1 else c.dow) ∧
  (∀ (baseYear : Nat) (c : CalTime),
    let length :=
      if c.mon = 4 ∨ c.mon = 6 ∨ c.mon = 9 ∨ c.mon = 11 then 30
      else if c.mon = 2 then (if gregorianLeap (baseYear + c.year) then 29 else 28) else 31
    let newMinute := decide (59 ≤ c.sec)
    let newHour := newMinute && decide (59 ≤ c.min)
    let newDay := newHour && decide (23 ≤ c.hour)
    let newMonth := newDay && decide (length ≤ c.mday)
    let newYear := newMonth && decide (12 ≤ c.mon)
    tick1 baseYear c =
      { sec := if newMinute then 0 else c.sec + 1
        min := if newHour then 0 else if newMinute then c.min + 1 else c.min
        hour := if newDay then 0 else if newHour then c.hour + 1 else c.hour
        dow := if newDay then (if 7 ≤ c.dow then 1 else c.dow + 1) else c.dow
        mday := if newMonth then 1 else if newDay then c.mday + 1 else c.mday
        mon := if newYear then 1 else if newMonth then c.mon + 1 else c.mon
        year := if newYear then (if 99 ≤ c.year then 0 else c.year + 1) else c.year })

/-- After RESUME each event is a step from its deadline on, and but for one case under Slew (model's choice: log 23)
none is later. Rests on: 46_suspend_reset.md section 3 (rules R262, R263); 10_state.md section 6 (rule R42);
42_periodic.md section 2 (rule R182); 43_update_alarm.md section 1 (rule R200); 44_coalescing.md section 2 (rule
R223); 45_lost_tick.md section 3 (rule R244); notes/assumptions/23.md: the one exception is the model's choice. The
exception is the model's choice (DEDUCED): R42, R200 and R244 are followed to the letter, and the "stay enabled" of
R263 is read as not cancelled, log 23. -/
def Obligations.ResumeKeepsDueEventsDue : Prop :=
  ∀ s t : State, exec .resume s = .next t →
    t.dev.nextPeriodicDeadline = s.dev.nextPeriodicDeadline ∧ t.dev.reinjectPending = s.dev.reinjectPending ∧
    t.dev.timeBase.ref = s.dev.timeBase.ref ∧
    (t.dev.nextUpdateDeadline t.config ≤ s.dev.nextUpdateDeadline s.config ∨
      (s.config.lostTickPolicy = .slew ∧ s.dev.timeBase.off < 32768 ∧ 32768 ≤ t.dev.timeBase.off ∧
        32768 - s.dev.timeBase.off < s.config.slewInterval ∧
        t.dev.nextUpdateDeadline t.config = s.dev.timeBase.ref + s.config.slewInterval)) ∧
    (∀ u : State, u.dev = t.dev → u.config = t.config → u.Ready →
      (t.dev.nextUpdateDeadline t.config ≤ u.time → ∃ w, exec .evUpdate u = .next w) ∧
      (∀ dl, s.dev.nextPeriodicDeadline = some dl → dl ≤ u.time → ∃ w, exec .evPeriodic u = .next w) ∧
      (s.dev.reinjectPending = true → ∃ w, exec .evReinject u = .next w))
end

