-- ==== Sys2Proof/Laws/Decode.lean ====
section
/-! SUPPORT. The fields of a transaction word and their assembly are inverse; masking a word masks its fields. -/

namespace Sys2Proof

@[simp] theorem opField_mkWord (op : BitVec 4) (idx data : Byte) : opField (mkWord op idx data) = op := by
  unfold opField mkWord
  apply BitVec.eq_of_getLsbD_eq
  intro i hi
  simp only [BitVec.getLsbD_extractLsb', BitVec.getLsbD_append, hi, decide_true, Bool.true_and]
  rw [if_neg (by omega), if_neg (by omega)]
  congr 1; omega

@[simp] theorem idxField_mkWord (op : BitVec 4) (idx data : Byte) : idxField (mkWord op idx data) = idx := by
  unfold idxField mkWord
  apply BitVec.eq_of_getLsbD_eq
  intro i hi
  simp only [BitVec.getLsbD_extractLsb', BitVec.getLsbD_append, hi, decide_true, Bool.true_and]
  rw [if_neg (by omega), if_pos (by omega)]
  congr 1; omega

@[simp] theorem dataField_mkWord (op : BitVec 4) (idx data : Byte) : dataField (mkWord op idx data) = data := by
  unfold dataField mkWord
  apply BitVec.eq_of_getLsbD_eq
  intro i hi
  simp only [BitVec.getLsbD_extractLsb', BitVec.getLsbD_append, hi, decide_true, Bool.true_and]
  rw [if_pos (by omega)]
  congr 1; omega

/-- A word is its three fields. -/
theorem mkWord_fields (w : TWord) : mkWord (opField w) (idxField w) (dataField w) = w := by
  unfold opField idxField dataField mkWord
  apply BitVec.eq_of_getLsbD_eq
  intro i hi
  simp only [BitVec.getLsbD_extractLsb', BitVec.getLsbD_append]
  by_cases h1 : i < 8
  · simp [h1]
  · by_cases h2 : i - 8 < 8
    · rw [if_neg h1, if_pos h2]; simp only [h2, decide_true, Bool.true_and]; congr 1; omega
    · rw [if_neg h1, if_neg h2]
      have h3 : i - 8 - 8 < 4 := by omega
      simp only [h3, decide_true, Bool.true_and]; congr 1; omega

/-- Masking acts field by field. -/
theorem mkWord_and (a b : BitVec 4) (i j v u : Byte) :
    mkWord a i v &&& mkWord b j u = mkWord (a &&& b) (i &&& j) (v &&& u) := by
  unfold mkWord
  apply BitVec.eq_of_getLsbD_eq
  intro k _
  simp only [BitVec.getLsbD_and, BitVec.getLsbD_append]
  split
  · rfl
  · split <;> rfl

end Sys2Proof
end

