-- ==== Sys2Proof/Laws/Memory.lean ====
section
/-! SUPPORT. The laws of the register file: what a read gives after a write, that a write keeps the canonical form, that
two canonical register files that read the same are the same data. -/

namespace Sys2Proof.Machine

open Sys2Proof

@[simp] theorem Memory.read_nil (a : Nat) : Memory.read [] a = 0x00 := rfl

theorem Memory.read_cons (k : Nat) (v : Byte) (m : Memory) (a : Nat) :
    Memory.read ((k, v) :: m) a = if k = a then v else Memory.read m a := rfl

theorem Memory.read_filter (m : Memory) (a b : Nat) :
    Memory.read (m.filter (fun c => c.1 != a)) b = if a = b then 0x00 else Memory.read m b := by
  induction m with
  | nil => simp
  | cons c m ih =>
    obtain ⟨k, v⟩ := c
    by_cases hk : k = a
    · subst hk
      rw [List.filter_cons_of_neg (by simp), ih, Memory.read_cons]
      split <;> rfl
    · rw [List.filter_cons_of_pos (by simpa using hk), Memory.read_cons, ih, Memory.read_cons]
      by_cases hb : k = b
      · subst hb; simp [Ne.symm hk]
      · simp [hb]

theorem Memory.read_insert (m : Memory) (a b : Nat) (v : Byte) (h : ∀ c ∈ m, c.1 ≠ a) :
    Memory.read (Memory.insert (a, v) m) b = if a = b then v else Memory.read m b := by
  induction m with
  | nil => simp [Memory.insert, Memory.read_cons]
  | cons c m ih =>
    obtain ⟨k, w⟩ := c
    have hk : k ≠ a := h (k, w) (by simp)
    have ih' := ih (fun c hc => h c (by simp [hc]))
    by_cases hlt : a < k
    · simp [Memory.insert, hlt, Memory.read_cons]
    · simp only [Memory.insert, hlt, if_false, Memory.read_cons, ih']
      by_cases hb : k = b
      · subst hb; simp [Ne.symm hk]
      · simp [hb]

/-- Read after write, for every list: the written index gives the byte, every other index what it gave. -/
theorem Memory.read_write (m : Memory) (a b : Nat) (v : Byte) :
    Memory.read (Memory.write m a v) b = if a = b then v else Memory.read m b := by
  unfold Memory.write
  by_cases hv : v = unlistedByte
  · subst hv; simp only [if_true]; exact Memory.read_filter m a b
  · simp only [hv, if_false]
    rw [Memory.read_insert _ _ _ _ (by intro c hc; simpa using (List.mem_filter.mp hc).2), Memory.read_filter]
    by_cases h : a = b <;> simp [h]

theorem Memory.mem_insert (m : Memory) (c x : Host.Cell) : x ∈ Memory.insert c m ↔ x = c ∨ x ∈ m := by
  induction m with
  | nil => simp [Memory.insert]
  | cons d m ih =>
    by_cases h : c.1 < d.1
    · simp [Memory.insert, h]
    · simp only [Memory.insert, h, if_false, List.mem_cons, ih]; tauto

theorem Memory.insert_pairwise (m : Memory) (c : Host.Cell) (hm : m.Pairwise (fun c d => c.1 < d.1))
    (hc : ∀ x ∈ m, x.1 ≠ c.1) : (Memory.insert c m).Pairwise (fun c d => c.1 < d.1) := by
  induction m with
  | nil => simp [Memory.insert]
  | cons d m ih =>
    have hd := List.pairwise_cons.mp hm
    have hdc : d.1 ≠ c.1 := hc d (by simp)
    by_cases h : c.1 < d.1
    · simp only [Memory.insert, h, if_true]
      refine List.pairwise_cons.mpr ⟨?_, hm⟩
      intro x hx
      rcases List.mem_cons.mp hx with rfl | hx
      · exact h
      · exact lt_trans h (hd.1 x hx)
    · simp only [Memory.insert, h, if_false]
      refine List.pairwise_cons.mpr ⟨?_, ih hd.2 (fun x hx => hc x (by simp [hx]))⟩
      intro x hx
      rcases (Memory.mem_insert m c x).mp hx with rfl | hx
      · omega
      · exact hd.1 x hx

/-- A write keeps the canonical form. -/
theorem Memory.write_wf (m : Memory) (a : Nat) (v : Byte) (hm : Memory.wf m) (ha : a < 256) :
    Memory.wf (Memory.write m a v) := by
  have hp : (m.filter (fun c => c.1 != a)).Pairwise (fun c d => c.1 < d.1) := hm.1.filter _
  have hall : ∀ c ∈ m.filter (fun c => c.1 != a), c.1 < 256 ∧ c.2 ≠ unlistedByte :=
    fun c hc => hm.2 c (List.mem_filter.mp hc).1
  unfold Memory.write
  by_cases hv : v = unlistedByte
  · simp only [hv, if_true]; exact ⟨hp, hall⟩
  · simp only [hv, if_false]
    refine ⟨Memory.insert_pairwise _ _ hp (by intro x hx; simpa using (List.mem_filter.mp hx).2), ?_⟩
    intro c hc
    rcases (Memory.mem_insert _ _ _).mp hc with rfl | hc
    · exact ⟨ha, hv⟩
    · exact hall c hc

theorem Memory.wf_nil : Memory.wf [] := by simp [Memory.wf]

theorem Memory.read_below_head (m : Memory) (a : Nat) (h : ∀ c ∈ m, a < c.1) : Memory.read m a = 0x00 := by
  induction m with
  | nil => rfl
  | cons c m ih =>
    obtain ⟨k, v⟩ := c
    have hk : a < k := h (k, v) (by simp)
    rw [Memory.read_cons, if_neg (by omega)]
    exact ih (fun c hc => h c (by simp [hc]))

/-- Equal memories are equal data: two canonical register files that read alike everywhere are the same list. -/
theorem Memory.ext_of_read (m m' : Memory) (hm : Memory.wf m) (hm' : Memory.wf m')
    (h : ∀ a, Memory.read m a = Memory.read m' a) : m = m' := by
  induction m generalizing m' with
  | nil =>
    cases m' with
    | nil => rfl
    | cons c m' =>
      obtain ⟨k, v⟩ := c
      have := h k
      simp only [Memory.read_cons, if_true, Memory.read_nil] at this
      exact absurd this.symm (hm'.2 (k, v) (by simp)).2
  | cons c m ih =>
    obtain ⟨k, v⟩ := c
    have hp := List.pairwise_cons.mp hm.1
    have hv : v ≠ 0x00 := (hm.2 (k, v) (by simp)).2
    cases m' with
    | nil =>
      have := h k
      simp only [Memory.read_cons, if_true, Memory.read_nil] at this
      exact absurd this hv
    | cons c' m' =>
      obtain ⟨k', v'⟩ := c'
      have hp' := List.pairwise_cons.mp hm'.1
      have hv' : v' ≠ 0x00 := (hm'.2 (k', v') (by simp)).2
      have hkk : k = k' := by
        rcases Nat.lt_trichotomy k k' with hlt | heq | hgt
        · have := h k
          rw [Memory.read_cons, if_pos rfl, Memory.read_cons, if_neg (by omega),
            Memory.read_below_head m' k (fun c hc => lt_trans hlt (hp'.1 c hc))] at this
          exact absurd this hv
        · exact heq
        · have := h k'
          rw [Memory.read_cons, if_neg (by omega), Memory.read_cons, if_pos rfl,
            Memory.read_below_head m k' (fun c hc => lt_trans hgt (hp.1 c hc))] at this
          exact absurd this.symm hv'
      subst hkk
      have hvv : v = v' := by have := h k; simpa [Memory.read_cons] using this
      subst hvv
      congr 1
      refine ih m' ⟨hp.2, fun c hc => hm.2 c (by simp [hc])⟩ ⟨hp'.2, fun c hc => hm'.2 c (by simp [hc])⟩ ?_
      intro a
      by_cases ha : k = a
      · subst ha; rw [Memory.read_below_head m k hp.1, Memory.read_below_head m' k hp'.1]
      · have := h a; simpa [Memory.read_cons, ha] using this

theorem Memory.foldl_image_read (image : List (Nat × Byte)) (n b : Nat) :
    Memory.read ((List.range n).foldl (fun m i => Memory.write m i (Memory.read image i)) []) b =
      if b < n then Memory.read image b else 0x00 := by
  induction n with
  | zero => simp
  | succ n ih =>
    rw [List.range_succ, List.foldl_append, List.foldl_cons, List.foldl_nil, Memory.read_write, ih]
    by_cases h : n = b
    · subst h; simp
    · by_cases h2 : b < n
      · simp [h, h2, Nat.lt_succ_of_lt h2]
      · simp [h, h2]; intro h3; omega

theorem Memory.foldl_image_wf (image : List (Nat × Byte)) (n : Nat) (hn : n ≤ 256) :
    Memory.wf ((List.range n).foldl (fun m i => Memory.write m i (Memory.read image i)) []) := by
  induction n with
  | zero => exact Memory.wf_nil
  | succ n ih =>
    rw [List.range_succ, List.foldl_append, List.foldl_cons, List.foldl_nil]
    exact Memory.write_wf _ _ _ (ih (by omega)) (by omega)

/-- The image loop of INIT leaves `image[i]` at every index. -/
theorem Memory.read_ofImage (image : List (Nat × Byte)) (a : Nat) (ha : a < 256) :
    Memory.read (Memory.ofImage image) a = Memory.read image a := by
  simp [Memory.ofImage, Memory.foldl_image_read, ha]

/-- The image loop of INIT leaves the canonical form. -/
theorem Memory.ofImage_wf (image : List (Nat × Byte)) : Memory.wf (Memory.ofImage image) :=
  Memory.foldl_image_wf image 256 (le_refl _)

/-- `reg[j]` after `reg[i] <- v`. -/
theorem Device.reg_setReg (d : Device) (i j v : Byte) :
    (d.setReg i v).reg j = if i = j then v else d.reg j := by
  simp only [Device.reg, Device.setReg, Memory.read_write, BitVec.toNat_inj]

@[simp] theorem Device.reg_setReg_same (d : Device) (i v : Byte) : (d.setReg i v).reg i = v := by
  simp [Device.reg_setReg]

theorem Device.reg_setReg_other (d : Device) (i j v : Byte) (h : i ≠ j) : (d.setReg i v).reg j = d.reg j := by
  simp [Device.reg_setReg, h]

/-- `reg[j]` after `reg[i] <- reg[i] | m`. -/
theorem Device.reg_orReg (d : Device) (i j m : Byte) :
    (d.orReg i m).reg j = if i = j then d.reg j ||| m else d.reg j := by
  rw [Device.orReg, Device.reg_setReg]; split
  · next h => subst h; rfl
  · rfl

theorem Device.setReg_wf (d : Device) (i v : Byte) (h : Memory.wf d.regs) : Memory.wf (d.setReg i v).regs :=
  Memory.write_wf _ _ _ h i.isLt

theorem Device.orReg_wf (d : Device) (i m : Byte) (h : Memory.wf d.regs) : Memory.wf (d.orReg i m).regs :=
  Device.setReg_wf d i _ h

end Sys2Proof.Machine
end

