-- ==== Sys2Proof/Laws/State.lean ====
section
/-! SUPPORT. One lemma per field per update of the device record and of the state, each true by rfl. -/

namespace Sys2Proof.Machine

open Sys2Proof

/-! A register store changes the register file alone. -/

@[simp] theorem Device.setReg_selectedIndex (d : Device) (i v : Byte) : (d.setReg i v).selectedIndex = d.selectedIndex := rfl
@[simp] theorem Device.setReg_timeBase (d : Device) (i v : Byte) : (d.setReg i v).timeBase = d.timeBase := rfl
@[simp] theorem Device.setReg_nextPeriodicDeadline (d : Device) (i v : Byte) : (d.setReg i v).nextPeriodicDeadline = d.nextPeriodicDeadline := rfl
@[simp] theorem Device.setReg_coalescedCount (d : Device) (i v : Byte) : (d.setReg i v).coalescedCount = d.coalescedCount := rfl
@[simp] theorem Device.setReg_reinjectPending (d : Device) (i v : Byte) : (d.setReg i v).reinjectPending = d.reinjectPending := rfl
@[simp] theorem Device.setReg_phase (d : Device) (i v : Byte) : (d.setReg i v).phase = d.phase := rfl
@[simp] theorem Device.setReg_suspendRecord (d : Device) (i v : Byte) : (d.setReg i v).suspendRecord = d.suspendRecord := rfl

@[simp] theorem Device.orReg_selectedIndex (d : Device) (i m : Byte) : (d.orReg i m).selectedIndex = d.selectedIndex := rfl
@[simp] theorem Device.orReg_timeBase (d : Device) (i m : Byte) : (d.orReg i m).timeBase = d.timeBase := rfl
@[simp] theorem Device.orReg_nextPeriodicDeadline (d : Device) (i m : Byte) : (d.orReg i m).nextPeriodicDeadline = d.nextPeriodicDeadline := rfl
@[simp] theorem Device.orReg_coalescedCount (d : Device) (i m : Byte) : (d.orReg i m).coalescedCount = d.coalescedCount := rfl
@[simp] theorem Device.orReg_reinjectPending (d : Device) (i m : Byte) : (d.orReg i m).reinjectPending = d.reinjectPending := rfl
@[simp] theorem Device.orReg_phase (d : Device) (i m : Byte) : (d.orReg i m).phase = d.phase := rfl
@[simp] theorem Device.orReg_suspendRecord (d : Device) (i m : Byte) : (d.orReg i m).suspendRecord = d.suspendRecord := rfl

@[simp] theorem Device.encodeTime_selectedIndex (d : Device) (c : CalTime) : (d.encodeTime c).selectedIndex = d.selectedIndex := rfl
@[simp] theorem Device.encodeTime_timeBase (d : Device) (c : CalTime) : (d.encodeTime c).timeBase = d.timeBase := rfl
@[simp] theorem Device.encodeTime_nextPeriodicDeadline (d : Device) (c : CalTime) : (d.encodeTime c).nextPeriodicDeadline = d.nextPeriodicDeadline := rfl
@[simp] theorem Device.encodeTime_coalescedCount (d : Device) (c : CalTime) : (d.encodeTime c).coalescedCount = d.coalescedCount := rfl
@[simp] theorem Device.encodeTime_reinjectPending (d : Device) (c : CalTime) : (d.encodeTime c).reinjectPending = d.reinjectPending := rfl
@[simp] theorem Device.encodeTime_phase (d : Device) (c : CalTime) : (d.encodeTime c).phase = d.phase := rfl
@[simp] theorem Device.encodeTime_suspendRecord (d : Device) (c : CalTime) : (d.encodeTime c).suspendRecord = d.suspendRecord := rfl

/-! Coalescing changes the count alone. -/

@[simp] theorem Device.coalesce_regs (c : Config) (k : Nat) (d : Device) : (d.coalesce c k).regs = d.regs := rfl
@[simp] theorem Device.coalesce_selectedIndex (c : Config) (k : Nat) (d : Device) : (d.coalesce c k).selectedIndex = d.selectedIndex := rfl
@[simp] theorem Device.coalesce_timeBase (c : Config) (k : Nat) (d : Device) : (d.coalesce c k).timeBase = d.timeBase := rfl
@[simp] theorem Device.coalesce_nextPeriodicDeadline (c : Config) (k : Nat) (d : Device) : (d.coalesce c k).nextPeriodicDeadline = d.nextPeriodicDeadline := rfl
@[simp] theorem Device.coalesce_coalescedCount (c : Config) (k : Nat) (d : Device) : (d.coalesce c k).coalescedCount = min c.coalesceMax (d.coalescedCount + k) := rfl
@[simp] theorem Device.coalesce_reinjectPending (c : Config) (k : Nat) (d : Device) : (d.coalesce c k).reinjectPending = d.reinjectPending := rfl
@[simp] theorem Device.coalesce_phase (c : Config) (k : Nat) (d : Device) : (d.coalesce c k).phase = d.phase := rfl
@[simp] theorem Device.coalesce_suspendRecord (c : Config) (k : Nat) (d : Device) : (d.coalesce c k).suspendRecord = d.suspendRecord := rfl

/-! A write of control register A stores the byte and restarts the periodic timer. -/

@[simp] theorem Device.writeCtrlA_selectedIndex (v : Byte) (now : Nat) (d : Device) : (d.writeCtrlA v now).selectedIndex = d.selectedIndex := rfl
@[simp] theorem Device.writeCtrlA_timeBase (v : Byte) (now : Nat) (d : Device) : (d.writeCtrlA v now).timeBase = d.timeBase := rfl
@[simp] theorem Device.writeCtrlA_nextPeriodicDeadline (v : Byte) (now : Nat) (d : Device) : (d.writeCtrlA v now).nextPeriodicDeadline = armPeriodic (rateTable (rateSelect v)) now := rfl
@[simp] theorem Device.writeCtrlA_coalescedCount (v : Byte) (now : Nat) (d : Device) : (d.writeCtrlA v now).coalescedCount = d.coalescedCount := rfl
@[simp] theorem Device.writeCtrlA_reinjectPending (v : Byte) (now : Nat) (d : Device) : (d.writeCtrlA v now).reinjectPending = d.reinjectPending := rfl
@[simp] theorem Device.writeCtrlA_phase (v : Byte) (now : Nat) (d : Device) : (d.writeCtrlA v now).phase = d.phase := rfl
@[simp] theorem Device.writeCtrlA_suspendRecord (v : Byte) (now : Nat) (d : Device) : (d.writeCtrlA v now).suspendRecord = d.suspendRecord := rfl

/-! The completion of an operation. -/

@[simp] theorem complete_dev (s : State) (d : Device) (r : Option Byte) (last : Nat) : (complete s d r last).dev = d := rfl
@[simp] theorem complete_lastNow (s : State) (d : Device) (r : Option Byte) (last : Nat) : (complete s d r last).lastNow = last := rfl
@[simp] theorem complete_config (s : State) (d : Device) (r : Option Byte) (last : Nat) : (complete s d r last).config = s.config := rfl
@[simp] theorem complete_inputs (s : State) (d : Device) (r : Option Byte) (last : Nat) : (complete s d r last).inputs = s.inputs := rfl
@[simp] theorem complete_time (s : State) (d : Device) (r : Option Byte) (last : Nat) : (complete s d r last).time = s.time := rfl
@[simp] theorem complete_ret (s : State) (d : Device) (r : Option Byte) (last : Nat) : (complete s d r last).ret = r := rfl
@[simp] theorem complete_edge (s : State) (d : Device) (r : Option Byte) (last : Nat) : (complete s d r last).edge = edgeOf s.dev.line d.line := rfl
@[simp] theorem complete_sink (s : State) (d : Device) (r : Option Byte) (last : Nat) : (complete s d r last).sink = recordEdge (edgeOf s.dev.line d.line) s.sink := rfl

@[simp] theorem completeNow_dev (s : State) (d : Device) (r : Option Byte) : (completeNow s d r).dev = d := rfl
@[simp] theorem completeNow_lastNow (s : State) (d : Device) (r : Option Byte) : (completeNow s d r).lastNow = s.time := rfl
@[simp] theorem completeNow_config (s : State) (d : Device) (r : Option Byte) : (completeNow s d r).config = s.config := rfl
@[simp] theorem completeNow_inputs (s : State) (d : Device) (r : Option Byte) : (completeNow s d r).inputs = s.inputs := rfl
@[simp] theorem completeNow_time (s : State) (d : Device) (r : Option Byte) : (completeNow s d r).time = s.time := rfl
@[simp] theorem completeNow_ret (s : State) (d : Device) (r : Option Byte) : (completeNow s d r).ret = r := rfl
@[simp] theorem completeNow_edge (s : State) (d : Device) (r : Option Byte) : (completeNow s d r).edge = edgeOf s.dev.line d.line := rfl
@[simp] theorem completeNow_sink (s : State) (d : Device) (r : Option Byte) : (completeNow s d r).sink = recordEdge (edgeOf s.dev.line d.line) s.sink := rfl

/-! Accepting and presenting a request. -/

@[simp] theorem State.accept_dev (s : State) (r : Request) (rest : List Request) : (s.accept r rest).dev = s.dev := rfl
@[simp] theorem State.accept_lastNow (s : State) (r : Request) (rest : List Request) : (s.accept r rest).lastNow = s.lastNow := rfl
@[simp] theorem State.accept_config (s : State) (r : Request) (rest : List Request) : (s.accept r rest).config = s.config := rfl
@[simp] theorem State.accept_inputs (s : State) (r : Request) (rest : List Request) : (s.accept r rest).inputs = rest := rfl
@[simp] theorem State.accept_time (s : State) (r : Request) (rest : List Request) : (s.accept r rest).time = r.time := rfl
@[simp] theorem State.accept_ret (s : State) (r : Request) (rest : List Request) : (s.accept r rest).ret = s.ret := rfl
@[simp] theorem State.accept_edge (s : State) (r : Request) (rest : List Request) : (s.accept r rest).edge = s.edge := rfl
@[simp] theorem State.accept_sink (s : State) (r : Request) (rest : List Request) : (s.accept r rest).sink = s.sink := rfl

@[simp] theorem State.present_lastNow (s : State) (w : TWord) : (s.present w).lastNow = s.lastNow := rfl
@[simp] theorem State.present_config (s : State) (w : TWord) : (s.present w).config = s.config := rfl
@[simp] theorem State.present_inputs (s : State) (w : TWord) : (s.present w).inputs = .word w (s.presentTime w) :: s.inputs := rfl
@[simp] theorem State.present_time (s : State) (w : TWord) : (s.present w).time = s.time := rfl
@[simp] theorem State.present_ret (s : State) (w : TWord) : (s.present w).ret = s.ret := rfl
@[simp] theorem State.present_edge (s : State) (w : TWord) : (s.present w).edge = s.edge := rfl
@[simp] theorem State.present_sink (s : State) (w : TWord) : (s.present w).sink = s.sink := rfl

/-! The view of the suspend instant, 10_state.md R49. -/

@[simp] theorem Device.suspendInstant_of_suspended (d : Device) (h : d.phase = .suspended) :
    d.suspendInstant = d.suspendRecord := if_pos h

@[simp] theorem Device.suspendInstant_of_not_suspended (d : Device) (h : d.phase ≠ .suspended) :
    d.suspendInstant = none := if_neg h

/-! The state after reset, 70_reset_and_hazards.md R340. -/

@[simp] theorem State.reset_phase : State.reset.dev.phase = .running := rfl
@[simp] theorem State.reset_inputs : State.reset.inputs = [] := rfl
@[simp] theorem State.reset_sink : State.reset.sink = [] := rfl

end Sys2Proof.Machine
end

