-- ==== Sys2Proof/Laws/Ops.lean ====
section
/-! SUPPORT. What each shared operation can do, said once: the admission checks, the accesses of the two ports and of
the direct accessors, the semantic decoder, the acknowledgment, the three fires, and the step. -/

namespace Sys2Proof.Machine

open Sys2Proof

/-! Admission and completion -/

/-- An operation of phase Running has a next state exactly when neither common refusal applies and it has one. -/
theorem whenRunning_next (s t : State) (op : Result) : whenRunning s op = .next t ↔ s.Ready ∧ op = .next t := by
  unfold whenRunning State.Ready
  by_cases h : s.dev.phase = .running
  · by_cases h2 : s.time < s.lastNow
    · simp [h, h2]
    · simp [h, h2]; intro _; omega
  · simp [h]

theorem whenRunning_ready (s : State) (op : Result) (h : s.Ready) : whenRunning s op = op := by
  unfold whenRunning; rw [if_pos h.1, if_neg (by omega)]

theorem next_inj (s t : State) : (Host.Outcome.next s : Result) = .next t ↔ s = t := by simp

/-- What a completed operation that carries `now` reports. -/
theorem completeNow_reports (s : State) (d : Device) (r : Option Byte) : ReportsNow s (completeNow s d r) r :=
  ⟨⟨rfl, rfl, rfl, rfl, rfl, rfl⟩, rfl⟩

@[simp] theorem edgeOf_self (b : Bool) : edgeOf b b = none := by cases b <;> rfl

@[simp] theorem recordEdge_none (l : List Edge) : recordEdge none l = l := rfl

/-! Ports and direct accessors -/

theorem datWr_next (idx v : Byte) (s t : State) :
    datWr idx v s = .next t ↔ s.Ready ∧ completeNow s (s.dev.writeReg idx v s.time) none = t := by
  simp [datWr, whenRunning_next]

theorem setByte_next (idx v : Byte) (s t : State) :
    setByte idx v s = .next t ↔ s.Ready ∧ completeNow s (s.dev.writeReg idx v s.time) none = t := by
  simp [setByte, whenRunning_next]

theorem getByte_next (idx : Byte) (s t : State) :
    getByte idx s = .next t ↔ s.Ready ∧ completeNow s s.dev (some (s.dev.peekReg idx)) = t := by
  simp [getByte, whenRunning_next]

theorem datRd_next (idx : Byte) (s t : State) :
    datRd idx s = .next t ↔ s.Ready ∧
      ((idx = regC ∧ completeNow s s.dev.readAndClearC (some s.dev.statusByte) = t) ∨
       (idx ≠ regC ∧ completeNow s s.dev (some (s.dev.peekReg idx)) = t)) := by
  unfold datRd
  rw [whenRunning_next]
  by_cases h : idx = regC
  · subst h; simp
  · rw [if_neg h]; simp only [next_inj, h, false_and, false_or, ne_eq, not_false_eq_true, true_and]

/-! The semantic decoder -/

theorem regClass_time (i : Byte) (h : i ∈ [regSeconds, regMinutes, regHours, regDayOfWeek, regDayOfMonth, regMonth,
    regYear]) : regClass i = .time := by unfold regClass; rw [if_pos h]

theorem regClass_nvram (i : Byte) : regClass i = .nvram ↔ 0x0E ≤ i := by revert i; decide

/-- A write stores its byte, stores seven bits and restarts the periodic timer, or does nothing, by the index. -/
theorem writeReg_cases (i v : Byte) (now : Nat) (d : Device) :
    (i ≠ regA ∧ i ≠ regC ∧ i ≠ regD ∧ d.writeReg i v now = d.setReg i v) ∨
    (i = regA ∧ d.writeReg i v now = d.writeCtrlA v now) ∨
    ((i = regC ∨ i = regD) ∧ d.writeReg i v now = d) := by
  have key : ∀ i : Byte,
      (i ≠ regA ∧ i ≠ regC ∧ i ≠ regD ∧
        (regClass i = .time ∨ regClass i = .alarm ∨ regClass i = .nvram ∨ (regClass i = .ctrlB ∧ i = regB))) ∨
      (i = regA ∧ regClass i = .ctrlA) ∨ ((i = regC ∨ i = regD) ∧ (regClass i = .ctrlC ∨ regClass i = .ctrlD)) := by
    decide
  rcases key i with ⟨h1, h2, h3, hc | hc | hc | ⟨hc, rfl⟩⟩ | ⟨h1, hc⟩ | ⟨h1, hc | hc⟩
  · exact .inl ⟨h1, h2, h3, by simp [Device.writeReg, hc]⟩
  · exact .inl ⟨h1, h2, h3, by simp [Device.writeReg, hc]⟩
  · exact .inl ⟨h1, h2, h3, by simp [Device.writeReg, hc]⟩
  · exact .inl ⟨h1, h2, h3, by rw [Device.writeReg, hc]⟩
  · exact .inr (.inl ⟨h1, by simp [Device.writeReg, hc]⟩)
  · exact .inr (.inr ⟨h1, by simp [Device.writeReg, hc]⟩)
  · exact .inr (.inr ⟨h1, by simp [Device.writeReg, hc]⟩)

/-- A read gives the stored byte everywhere but at control registers C and D. -/
theorem peekReg_cases (i : Byte) (d : Device) :
    (i ≠ regC ∧ i ≠ regD ∧ d.peekReg i = d.reg i) ∨ (i = regC ∧ d.peekReg i = d.statusByte) ∨
    (i = regD ∧ d.peekReg i = 0x80) := by
  have key : ∀ i : Byte,
      (i ≠ regC ∧ i ≠ regD ∧ (regClass i = .time ∨ regClass i = .alarm ∨ regClass i = .nvram ∨
        (regClass i = .ctrlA ∧ i = regA) ∨ (regClass i = .ctrlB ∧ i = regB))) ∨
      (i = regC ∧ regClass i = .ctrlC) ∨ (i = regD ∧ regClass i = .ctrlD) := by decide
  rcases key i with ⟨h1, h2, hc | hc | hc | ⟨hc, rfl⟩ | ⟨hc, rfl⟩⟩ | ⟨h1, hc⟩ | ⟨h1, hc⟩
  · exact .inl ⟨h1, h2, by simp [Device.peekReg, hc]⟩
  · exact .inl ⟨h1, h2, by simp [Device.peekReg, hc]⟩
  · exact .inl ⟨h1, h2, by simp [Device.peekReg, hc]⟩
  · exact .inl ⟨h1, h2, by rw [Device.peekReg, hc]⟩
  · exact .inl ⟨h1, h2, by rw [Device.peekReg, hc]⟩
  · exact .inr (.inl ⟨h1, by simp [Device.peekReg, hc]⟩)
  · exact .inr (.inr ⟨h1, by simp [Device.peekReg, hc]⟩)

theorem writeCtrlA_reg (v : Byte) (now : Nat) (d : Device) (j : Byte) :
    (d.writeCtrlA v now).reg j = if regA = j then v &&& 0x7F else d.reg j := Device.reg_setReg d regA j (v &&& 0x7F)

/-- A write keeps the canonical form of the register file. -/
theorem writeReg_wf (i v : Byte) (now : Nat) (d : Device) (h : Memory.wf d.regs) :
    Memory.wf (d.writeReg i v now).regs := by
  rcases writeReg_cases i v now d with ⟨_, _, _, e⟩ | ⟨_, e⟩ | ⟨_, e⟩ <;> rw [e]
  · exact Device.setReg_wf _ _ _ h
  · exact Device.setReg_wf d regA (v &&& 0x7F) h
  · exact h

/-! Acknowledgment and fires -/

/-- The acknowledgment takes one from a backlog and schedules a reinjection, or changes nothing. -/
theorem acknowledge_cases (d : Device) :
    (0 < d.coalescedCount ∧
      d.acknowledge = { d with coalescedCount := d.coalescedCount - 1, reinjectPending := true }) ∨
    (d.coalescedCount = 0 ∧ d.acknowledge = d) := by
  unfold Device.acknowledge
  by_cases h : 0 < d.coalescedCount
  · exact .inl ⟨h, by simp [h]⟩
  · exact .inr ⟨by omega, by simp [h]⟩

@[simp] theorem acknowledge_regs (d : Device) : d.acknowledge.regs = d.regs := by
  unfold Device.acknowledge; split <;> rfl

@[simp] theorem acknowledge_reg (d : Device) (j : Byte) : d.acknowledge.reg j = d.reg j := by simp [Device.reg]

@[simp] theorem coalesce_reg (c : Config) (k : Nat) (d : Device) (j : Byte) : (d.coalesce c k).reg j = d.reg j := rfl

theorem readAndClearC_reg (d : Device) (j : Byte) :
    d.readAndClearC.reg j = if regC = j then 0x00 else d.reg j := by
  simp [Device.readAndClearC, Device.reg_setReg]

/-- The codec writes the seven TIME registers and no other. -/
theorem encodeTime_reg (d : Device) (c : CalTime) (j : Byte) :
    (d.encodeTime c).reg j =
      if j = regYear then encField c.year d.dm
      else if j = regMonth then encField c.mon d.dm
      else if j = regDayOfMonth then encField c.mday d.dm
      else if j = regDayOfWeek then encField c.dow d.dm
      else if j = regHours then encodeHour c.hour d.dm d.h24
      else if j = regMinutes then encField c.min d.dm
      else if j = regSeconds then encField c.sec d.dm
      else d.reg j := by
  simp only [Device.encodeTime, Device.reg_setReg, eq_comm]

theorem encodeTime_wf (d : Device) (c : CalTime) (h : Memory.wf d.regs) : Memory.wf (d.encodeTime c).regs := by
  unfold Device.encodeTime; iterate 7 apply Device.setReg_wf
  exact h

/-- What the periodic fire writes: the deadline, the count, and PF unless the tick merges into a delivered one. -/
theorem firePeriodic_eq (c : Config) (now dl : Nat) (d : Device) :
    d.firePeriodic c now dl =
      let n := elapsedPeriods now dl d.periodicPeriod
      let counted : Device :=
        { d with
          nextPeriodicDeadline := some (dl + n * d.periodicPeriod)
          coalescedCount := if d.pie then min c.coalesceMax (d.coalescedCount + (n - 1)) else d.coalescedCount }
      if d.pf && d.pie then counted.coalesce c 1 else counted.orReg regC pfMask := by
  unfold Device.firePeriodic
  cases d.pie <;> rfl

/-- What the update fire leaves of the fields beside the register file. -/
theorem fireUpdate_fields (c : Config) (now : Nat) (d : Device) :
    d.fireUpdate c now =
      { d with
        regs := (d.fireUpdate c now).regs
        timeBase := { ref := now, off := d.owed now - secondsToApply c (d.owed now) * oneSec } } := by
  unfold Device.fireUpdate; simp only []; split <;> rfl

theorem fireReinject_fields (c : Config) (d : Device) :
    (d.pf = true ∧ d.fireReinject c =
      { d with coalescedCount := min c.coalesceMax (d.coalescedCount + 1), reinjectPending := false }) ∨
    (d.pf = false ∧ d.fireReinject c = { d.orReg regC pfMask with reinjectPending := false }) := by
  cases h : d.pf
  · exact .inr ⟨rfl, by simp [Device.fireReinject, h]⟩
  · exact .inl ⟨rfl, by simp [Device.fireReinject, h, Device.coalesce]⟩

/-! The timer events and the step -/

theorem execEvPeriodic_next (s t : State) :
    execEvPeriodic s = .next t ↔ s.Ready ∧ ∃ dl, s.dev.nextPeriodicDeadline = some dl ∧ dl ≤ s.time ∧
      completeNow s (s.dev.firePeriodic s.config s.time dl) none = t := by
  unfold execEvPeriodic
  rw [whenRunning_next]
  cases hd : s.dev.nextPeriodicDeadline with
  | none => simp
  | some dl => by_cases h : dl ≤ s.time <;> simp [h]

theorem execEvUpdate_next (s t : State) :
    execEvUpdate s = .next t ↔ s.Ready ∧ s.dev.nextUpdateDeadline s.config ≤ s.time ∧
      completeNow s (s.dev.fireUpdate s.config s.time) none = t := by
  unfold execEvUpdate
  rw [whenRunning_next]
  by_cases h : s.dev.nextUpdateDeadline s.config ≤ s.time <;> simp [h]

theorem execEvReinject_next (s t : State) :
    execEvReinject s = .next t ↔ s.Ready ∧ s.dev.reinjectPending = true ∧
      completeNow s (s.dev.fireReinject s.config) none = t := by
  unfold execEvReinject
  rw [whenRunning_next]
  cases h : s.dev.reinjectPending <;> simp

/-- What a step can do: wait, or accept the oldest request and run the instruction of its word. -/
theorem step_next (s t : State) :
    step s = .next t ↔ (s.inputs = [] ∧ t = s) ∨
      ∃ r rest w i, s.inputs = r :: rest ∧ r.transactionWord s.dev.selectedIndex = some w ∧ decode w = .ok i ∧
        exec i (s.accept r rest) = .next t := by
  unfold step runNext
  cases h : s.inputs with
  | nil => simp [eq_comm]
  | cons r rest =>
    simp only [runRequest, State.accept_dev]
    cases hw : r.transactionWord s.dev.selectedIndex with
    | none =>
      simp only [rejectAddress, whenRunning_next]
      simp_all
    | some w =>
      simp only [runWord]
      cases hi : decode w with
      | error e =>
        constructor
        · intro hx; cases hx
        · rintro (⟨hn, _⟩ | ⟨r', rest', w', i', he, hw', hi', _⟩)
          · cases hn
          · obtain ⟨rfl, rfl⟩ := List.cons.inj he
            rw [hw] at hw'; cases hw'; rw [hi] at hi'; cases hi'
      | ok i =>
        constructor
        · intro hx; exact .inr ⟨r, rest, w, i, rfl, hw, hi, hx⟩
        · rintro (⟨hn, _⟩ | ⟨r', rest', w', i', he, hw', hi', hx⟩)
          · cases hn
          · obtain ⟨rfl, rfl⟩ := List.cons.inj he
            rw [hw] at hw'; cases hw'; rw [hi] at hi'; cases hi'; exact hx

end Sys2Proof.Machine
end

