-- ==== Sys2Proof/Laws/Exec.lean ====
section
/-! SUPPORT. What an instruction can do, said once for all 87: `exec_shape` (every data access of the ports and of the
direct accessors is one of four shared operations), `exec_next` (every next state is a completion of one of twelve
changes of the device record), and the registers and fields that each change leaves. -/

namespace Sys2Proof.Machine

open Sys2Proof

/-- Every instruction is a write, a data-port read or a direct read at the index its word carries, an index select, or
one of the ten without an operand. -/
theorem exec_shape (i : Instr) :
    (∃ idx v, (encode i = mkWord 0x2 idx v ∨ encode i = mkWord 0x4 idx v) ∧
      ∀ s, exec i s = whenRunning s (.next (completeNow s (s.dev.writeReg idx v s.time) none))) ∨
    (∃ idx, encode i = mkWord 0x3 idx 0x00 ∧ ∀ s, exec i s = datRd idx s) ∨
    (∃ idx, encode i = mkWord 0x5 idx 0x00 ∧
      ∀ s, exec i s = whenRunning s (.next (completeNow s s.dev (some (s.dev.peekReg idx))))) ∨
    (∃ v, i = .idxWr v) ∨
    i ∈ ([.idxRd, .rstReinj, .clkReset, .suspend, .resume, .evPeriodic, .evUpdate, .evReinject, .init, .teardown] :
      List Instr) := by
  cases i with
  | idxWr v => exact .inr (.inr (.inr (.inl ⟨v, rfl⟩)))
  | idxRd => exact .inr (.inr (.inr (.inr (by simp))))
  | datWrSeconds v => exact .inl ⟨_, v, .inl rfl, fun _ => rfl⟩
  | datWrSecondsAlarm v => exact .inl ⟨_, v, .inl rfl, fun _ => rfl⟩
  | datWrMinutes v => exact .inl ⟨_, v, .inl rfl, fun _ => rfl⟩
  | datWrMinutesAlarm v => exact .inl ⟨_, v, .inl rfl, fun _ => rfl⟩
  | datWrHours v => exact .inl ⟨_, v, .inl rfl, fun _ => rfl⟩
  | datWrHoursAlarm v => exact .inl ⟨_, v, .inl rfl, fun _ => rfl⟩
  | datWrDayOfWeek v => exact .inl ⟨_, v, .inl rfl, fun _ => rfl⟩
  | datWrDayOfMonth v => exact .inl ⟨_, v, .inl rfl, fun _ => rfl⟩
  | datWrMonth v => exact .inl ⟨_, v, .inl rfl, fun _ => rfl⟩
  | datWrYear v => exact .inl ⟨_, v, .inl rfl, fun _ => rfl⟩
  | datWrRegA v => exact .inl ⟨_, v, .inl rfl, fun _ => rfl⟩
  | datWrRegB v => exact .inl ⟨_, v, .inl rfl, fun _ => rfl⟩
  | datWrRegC v => exact .inl ⟨_, v, .inl rfl, fun _ => rfl⟩
  | datWrRegD v => exact .inl ⟨_, v, .inl rfl, fun _ => rfl⟩
  | datWrNvram0E idx v => exact .inl ⟨idx, v, .inl rfl, fun _ => rfl⟩
  | datWrNvram10 idx v => exact .inl ⟨idx, v, .inl rfl, fun _ => rfl⟩
  | datWrNvram20 idx v => exact .inl ⟨idx, v, .inl rfl, fun _ => rfl⟩
  | datWrNvram40 idx v => exact .inl ⟨idx, v, .inl rfl, fun _ => rfl⟩
  | datWrNvram80 idx v => exact .inl ⟨idx, v, .inl rfl, fun _ => rfl⟩
  | datRdSeconds => exact .inr (.inl ⟨_, rfl, fun _ => rfl⟩)
  | datRdSecondsAlarm => exact .inr (.inl ⟨_, rfl, fun _ => rfl⟩)
  | datRdMinutes => exact .inr (.inl ⟨_, rfl, fun _ => rfl⟩)
  | datRdMinutesAlarm => exact .inr (.inl ⟨_, rfl, fun _ => rfl⟩)
  | datRdHours => exact .inr (.inl ⟨_, rfl, fun _ => rfl⟩)
  | datRdHoursAlarm => exact .inr (.inl ⟨_, rfl, fun _ => rfl⟩)
  | datRdDayOfWeek => exact .inr (.inl ⟨_, rfl, fun _ => rfl⟩)
  | datRdDayOfMonth => exact .inr (.inl ⟨_, rfl, fun _ => rfl⟩)
  | datRdMonth => exact .inr (.inl ⟨_, rfl, fun _ => rfl⟩)
  | datRdYear => exact .inr (.inl ⟨_, rfl, fun _ => rfl⟩)
  | datRdRegA => exact .inr (.inl ⟨_, rfl, fun _ => rfl⟩)
  | datRdRegB => exact .inr (.inl ⟨_, rfl, fun _ => rfl⟩)
  | datRdRegC => exact .inr (.inl ⟨_, rfl, fun _ => rfl⟩)
  | datRdRegD => exact .inr (.inl ⟨_, rfl, fun _ => rfl⟩)
  | datRdNvram0E idx => exact .inr (.inl ⟨_, rfl, fun _ => rfl⟩)
  | datRdNvram10 idx => exact .inr (.inl ⟨_, rfl, fun _ => rfl⟩)
  | datRdNvram20 idx => exact .inr (.inl ⟨_, rfl, fun _ => rfl⟩)
  | datRdNvram40 idx => exact .inr (.inl ⟨_, rfl, fun _ => rfl⟩)
  | datRdNvram80 idx => exact .inr (.inl ⟨_, rfl, fun _ => rfl⟩)
  | setByteSeconds v => exact .inl ⟨_, v, .inr rfl, fun _ => rfl⟩
  | setByteSecondsAlarm v => exact .inl ⟨_, v, .inr rfl, fun _ => rfl⟩
  | setByteMinutes v => exact .inl ⟨_, v, .inr rfl, fun _ => rfl⟩
  | setByteMinutesAlarm v => exact .inl ⟨_, v, .inr rfl, fun _ => rfl⟩
  | setByteHours v => exact .inl ⟨_, v, .inr rfl, fun _ => rfl⟩
  | setByteHoursAlarm v => exact .inl ⟨_, v, .inr rfl, fun _ => rfl⟩
  | setByteDayOfWeek v => exact .inl ⟨_, v, .inr rfl, fun _ => rfl⟩
  | setByteDayOfMonth v => exact .inl ⟨_, v, .inr rfl, fun _ => rfl⟩
  | setByteMonth v => exact .inl ⟨_, v, .inr rfl, fun _ => rfl⟩
  | setByteYear v => exact .inl ⟨_, v, .inr rfl, fun _ => rfl⟩
  | setByteRegA v => exact .inl ⟨_, v, .inr rfl, fun _ => rfl⟩
  | setByteRegB v => exact .inl ⟨_, v, .inr rfl, fun _ => rfl⟩
  | setByteRegC v => exact .inl ⟨_, v, .inr rfl, fun _ => rfl⟩
  | setByteRegD v => exact .inl ⟨_, v, .inr rfl, fun _ => rfl⟩
  | setByteNvram0E idx v => exact .inl ⟨idx, v, .inr rfl, fun _ => rfl⟩
  | setByteNvram10 idx v => exact .inl ⟨idx, v, .inr rfl, fun _ => rfl⟩
  | setByteNvram20 idx v => exact .inl ⟨idx, v, .inr rfl, fun _ => rfl⟩
  | setByteNvram40 idx v => exact .inl ⟨idx, v, .inr rfl, fun _ => rfl⟩
  | setByteNvram80 idx v => exact .inl ⟨idx, v, .inr rfl, fun _ => rfl⟩
  | getByteSeconds => exact .inr (.inr (.inl ⟨_, rfl, fun _ => rfl⟩))
  | getByteSecondsAlarm => exact .inr (.inr (.inl ⟨_, rfl, fun _ => rfl⟩))
  | getByteMinutes => exact .inr (.inr (.inl ⟨_, rfl, fun _ => rfl⟩))
  | getByteMinutesAlarm => exact .inr (.inr (.inl ⟨_, rfl, fun _ => rfl⟩))
  | getByteHours => exact .inr (.inr (.inl ⟨_, rfl, fun _ => rfl⟩))
  | getByteHoursAlarm => exact .inr (.inr (.inl ⟨_, rfl, fun _ => rfl⟩))
  | getByteDayOfWeek => exact .inr (.inr (.inl ⟨_, rfl, fun _ => rfl⟩))
  | getByteDayOfMonth => exact .inr (.inr (.inl ⟨_, rfl, fun _ => rfl⟩))
  | getByteMonth => exact .inr (.inr (.inl ⟨_, rfl, fun _ => rfl⟩))
  | getByteYear => exact .inr (.inr (.inl ⟨_, rfl, fun _ => rfl⟩))
  | getByteRegA => exact .inr (.inr (.inl ⟨_, rfl, fun _ => rfl⟩))
  | getByteRegB => exact .inr (.inr (.inl ⟨_, rfl, fun _ => rfl⟩))
  | getByteRegC => exact .inr (.inr (.inl ⟨_, rfl, fun _ => rfl⟩))
  | getByteRegD => exact .inr (.inr (.inl ⟨_, rfl, fun _ => rfl⟩))
  | getByteNvram0E idx => exact .inr (.inr (.inl ⟨_, rfl, fun _ => rfl⟩))
  | getByteNvram10 idx => exact .inr (.inr (.inl ⟨_, rfl, fun _ => rfl⟩))
  | getByteNvram20 idx => exact .inr (.inr (.inl ⟨_, rfl, fun _ => rfl⟩))
  | getByteNvram40 idx => exact .inr (.inr (.inl ⟨_, rfl, fun _ => rfl⟩))
  | getByteNvram80 idx => exact .inr (.inr (.inl ⟨_, rfl, fun _ => rfl⟩))
  | rstReinj => exact .inr (.inr (.inr (.inr (by simp))))
  | clkReset => exact .inr (.inr (.inr (.inr (by simp))))
  | suspend => exact .inr (.inr (.inr (.inr (by simp))))
  | resume => exact .inr (.inr (.inr (.inr (by simp))))
  | evPeriodic => exact .inr (.inr (.inr (.inr (by simp))))
  | evUpdate => exact .inr (.inr (.inr (.inr (by simp))))
  | evReinject => exact .inr (.inr (.inr (.inr (by simp))))
  | init => exact .inr (.inr (.inr (.inr (by simp))))
  | teardown => exact .inr (.inr (.inr (.inr (by simp))))

/-- The changes an instruction other than INIT can make to the device record. -/
inductive Effect (s : State) (i : Instr) (d : Device) : Prop where
  | write (idx v : Byte) (word : encode i = mkWord 0x2 idx v ∨ encode i = mkWord 0x4 idx v)
      (dev : d = s.dev.writeReg idx v s.time)
  | statusRead (word : encode i = mkWord 0x3 regC 0x00) (dev : d = s.dev.readAndClearC)
  | pure (checked : timeChecked i = true ∧ carriesWall i = false ∧ i ≠ .resume ∧ i ≠ .teardown) (dev : d = s.dev)
  | select (v : Byte) (instr : i = .idxWr v) (dev : d = { s.dev with selectedIndex := v })
  | dropBacklog (instr : i = .rstReinj) (dev : d = { s.dev with coalescedCount := 0, reinjectPending := false })
  | reanchor (instr : i = .clkReset)
      (dev : d =
        { s.dev with
          timeBase := { ref := s.time, off := s.dev.timeBase.off }
          nextPeriodicDeadline := armPeriodic s.dev.periodicPeriod s.time })
  | suspend (instr : i = .suspend) (dev : d = { s.dev with suspendRecord := some s.time, phase := .suspended })
  | resume (instr : i = .resume) (suspended : s.dev.phase = .suspended)
      (dev : d =
        { s.dev with
          timeBase :=
            { ref := s.dev.timeBase.ref
              off := s.dev.timeBase.off + suspendCredit s.config s.dev.suspendInstant s.time }
          suspendRecord := none
          phase := .running })
  | periodic (instr : i = .evPeriodic) (dl : Nat) (armed : s.dev.nextPeriodicDeadline = some dl) (due : dl ≤ s.time)
      (dev : d = s.dev.firePeriodic s.config s.time dl)
  | update (instr : i = .evUpdate) (due : s.dev.nextUpdateDeadline s.config ≤ s.time)
      (dev : d = s.dev.fireUpdate s.config s.time)
  | reinject (instr : i = .evReinject) (pending : s.dev.reinjectPending = true)
      (dev : d = s.dev.fireReinject s.config)
  | teardown (instr : i = .teardown) (live : s.dev.phase = .running ∨ s.dev.phase = .suspended)
      (dev : d = { s.dev with nextPeriodicDeadline := none, reinjectPending := false, phase := .tornDown })

theorem instr_of_formatX (i : Instr) (op : BitVec 4) (idx v : Byte) (h : encode i = mkWord op idx v)
    (hop : op = 0x2 ∨ op = 0x3 ∨ op = 0x4 ∨ op = 0x5) :
    i ∉ ([.idxRd, .rstReinj, .clkReset, .suspend, .resume, .evPeriodic, .evUpdate, .evReinject, .init, .teardown] :
      List Instr) := by
  intro hm
  have h1 : opField (encode i) = op := by rw [h]; simp
  simp only [List.mem_cons, List.not_mem_nil, or_false] at hm
  rcases hm with rfl | rfl | rfl | rfl | rfl | rfl | rfl | rfl | rfl | rfl <;> simp [encode] at h1 <;>
    (subst h1; revert hop; decide)

/-- An access of format X checks the time contract, is admitted in phase Running alone, and is no timer event. -/
theorem formatX_checked (i : Instr) (op : BitVec 4) (idx v : Byte) (h : encode i = mkWord op idx v)
    (hop : op = 0x2 ∨ op = 0x3 ∨ op = 0x4 ∨ op = 0x5) :
    (timeChecked i = true ∧ carriesWall i = false ∧ i ≠ .resume ∧ i ≠ .teardown) ∧
    (∀ p, admitted p i = decide (p = .running)) ∧ isEvent i = false := by
  have hn := instr_of_formatX i op idx v h hop
  simp only [List.mem_cons, not_or, List.not_mem_nil] at hn
  refine ⟨⟨?_, ?_, hn.2.2.2.2.1, hn.2.2.2.2.2.2.2.2.2.1⟩, ?_, ?_⟩
  · simp [timeChecked, carriesWall, hn]
  · simp [carriesWall, hn]
  · intro p; cases p <;> simp [admitted, hn]
  · simp [isEvent, hn]

/-- A conditional that refuses has a next state only on its other branch. -/
theorem ite_next {p : Prop} [Decidable p] {a t : State} {r : Refusal}
    (h : (if p then .next a else .refused r : Result) = .next t) : p ∧ a = t := by
  split at h
  · cases h; exact ⟨‹_›, rfl⟩
  · cases h

/-- Every next state of an instruction other than INIT is the completion of one `Effect`: `lastNow` becomes the time
argument, or stays for an operation that carries `wall`; the phase was Running but for RESUME and TEARDOWN; and the time
contract held where it is checked. -/
theorem exec_next (i : Instr) (s t : State) (hi : i ≠ .init) (h : exec i s = .next t) :
    Effect s i t.dev ∧
    (∃ ret last, t = complete s t.dev ret last ∧
      ((last = s.time ∧ carriesWall i = false) ∨ (last = s.lastNow ∧ carriesWall i = true))) ∧
    (i ≠ .resume → i ≠ .teardown → s.dev.phase = .running) ∧ (timeChecked i = true → s.lastNow ≤ s.time) := by
  rcases exec_shape i with ⟨idx, v, he, hx⟩ | ⟨idx, he, hx⟩ | ⟨idx, he, hx⟩ | ⟨v, rfl⟩ | hm
  · rw [hx, whenRunning_next] at h
    obtain ⟨hr, h⟩ := h; cases h
    have hw : carriesWall i = false := by
      rcases he with he | he <;> exact (formatX_checked i _ _ _ he (by simp)).1.2.1
    exact ⟨.write idx v he rfl, ⟨_, _, rfl, .inl ⟨rfl, hw⟩⟩, fun _ _ => hr.1, fun _ => hr.2⟩
  · rw [hx, datRd_next] at h
    have hw := (formatX_checked i _ _ _ he (by simp)).1
    obtain ⟨hr, ⟨h, rfl⟩ | ⟨_, rfl⟩⟩ := h
    · exact ⟨.statusRead (h ▸ he) rfl, ⟨_, _, rfl, .inl ⟨rfl, hw.2.1⟩⟩, fun _ _ => hr.1, fun _ => hr.2⟩
    · exact ⟨.pure hw rfl, ⟨_, _, rfl, .inl ⟨rfl, hw.2.1⟩⟩, fun _ _ => hr.1, fun _ => hr.2⟩
  · rw [hx, whenRunning_next] at h
    have hw := (formatX_checked i _ _ _ he (by simp)).1
    obtain ⟨hr, h⟩ := h; cases h
    exact ⟨.pure hw rfl, ⟨_, _, rfl, .inl ⟨rfl, hw.2.1⟩⟩, fun _ _ => hr.1, fun _ => hr.2⟩
  · obtain ⟨hr, h⟩ := (whenRunning_next _ _ _).1 h; cases h
    exact ⟨.select v rfl rfl, ⟨_, _, rfl, .inl ⟨rfl, rfl⟩⟩, fun _ _ => hr.1, fun _ => hr.2⟩
  · simp only [List.mem_cons, List.not_mem_nil, or_false] at hm
    rcases hm with rfl | rfl | rfl | rfl | rfl | rfl | rfl | rfl | rfl | rfl
    · obtain ⟨hr, h⟩ := (whenRunning_next _ _ _).1 h; cases h
      exact ⟨.pure (by decide) rfl, ⟨_, _, rfl, .inl ⟨rfl, rfl⟩⟩, fun _ _ => hr.1, fun _ => hr.2⟩
    · obtain ⟨hr, h⟩ := (whenRunning_next _ _ _).1 h; cases h
      exact ⟨.dropBacklog rfl rfl, ⟨_, _, rfl, .inl ⟨rfl, rfl⟩⟩, fun _ _ => hr.1, fun _ => hr.2⟩
    · obtain ⟨hp, rfl⟩ := ite_next h
      exact ⟨.reanchor rfl rfl, ⟨_, _, rfl, .inl ⟨rfl, rfl⟩⟩, fun _ _ => hp, by simp [timeChecked]⟩
    · obtain ⟨hp, rfl⟩ := ite_next h
      exact ⟨.suspend rfl rfl, ⟨_, _, rfl, .inr ⟨rfl, rfl⟩⟩, fun _ _ => hp, by simp [timeChecked, carriesWall]⟩
    · obtain ⟨hp, rfl⟩ := ite_next h
      exact ⟨.resume rfl hp rfl, ⟨_, _, rfl, .inr ⟨rfl, rfl⟩⟩, fun h => absurd rfl h,
        by simp [timeChecked, carriesWall]⟩
    · obtain ⟨hr, dl, ha, hd, rfl⟩ := (execEvPeriodic_next _ _).1 h
      exact ⟨.periodic rfl dl ha hd rfl, ⟨_, _, rfl, .inl ⟨rfl, rfl⟩⟩, fun _ _ => hr.1, fun _ => hr.2⟩
    · obtain ⟨hr, hd, rfl⟩ := (execEvUpdate_next _ _).1 h
      exact ⟨.update rfl hd rfl, ⟨_, _, rfl, .inl ⟨rfl, rfl⟩⟩, fun _ _ => hr.1, fun _ => hr.2⟩
    · obtain ⟨hr, hp, rfl⟩ := (execEvReinject_next _ _).1 h
      exact ⟨.reinject rfl hp rfl, ⟨_, _, rfl, .inl ⟨rfl, rfl⟩⟩, fun _ _ => hr.1, fun _ => hr.2⟩
    · exact absurd rfl hi
    · obtain ⟨hp, rfl⟩ := ite_next h
      exact ⟨.teardown rfl hp rfl, ⟨_, _, rfl, .inl ⟨rfl, rfl⟩⟩, fun _ h => absurd rfl h, by simp [timeChecked]⟩

/-! Registers after each change -/

theorem writeReg_other (i v : Byte) (now : Nat) (d : Device) (j : Byte) (hj : j ≠ i) :
    (d.writeReg i v now).reg j = d.reg j := by
  rcases writeReg_cases i v now d with ⟨_, _, _, e⟩ | ⟨h, e⟩ | ⟨_, e⟩ <;> rw [e]
  · exact Device.reg_setReg_other _ _ _ _ hj.symm
  · rw [writeCtrlA_reg, if_neg (by rw [← h]; exact hj.symm)]

/-- No write reaches control register C or D. -/
theorem writeReg_status (i v : Byte) (now : Nat) (d : Device) (j : Byte) (hj : j = regC ∨ j = regD) :
    (d.writeReg i v now).reg j = d.reg j := by
  rcases writeReg_cases i v now d with ⟨_, hc, hd, e⟩ | ⟨_, e⟩ | ⟨_, e⟩ <;> rw [e]
  · exact Device.reg_setReg_other _ _ _ _ (by rintro rfl; rcases hj with h | h <;> simp_all)
  · rw [writeCtrlA_reg, if_neg (by rcases hj with h | h <;> rw [h] <;> decide)]

theorem readAndClearC_regs (d : Device) (j : Byte) : d.readAndClearC.reg j = if regC = j then 0x00 else d.reg j := by
  rw [Device.readAndClearC, acknowledge_reg, Device.reg_setReg]

theorem or_pfMask (x : Byte) (h : x.getLsbD 6 = true) : x ||| 0x40 = x := by revert x; decide +kernel

/-- The periodic fire leaves PF set and every other register as it was. -/
theorem firePeriodic_reg (c : Config) (now dl : Nat) (d : Device) (j : Byte) :
    (d.firePeriodic c now dl).reg j = if regC = j then d.reg j ||| 0x40 else d.reg j := by
  rw [firePeriodic_eq]; simp only []
  by_cases h : (d.pf && d.pie) = true
  · rw [if_pos h]
    have same : ∀ e : Device, (Device.coalesce c 1 e).reg j = e.reg j := fun _ => rfl
    rw [same]
    simp only [Device.pf, Bool.and_eq_true] at h
    by_cases hj : regC = j
    · subst hj; rw [if_pos rfl, or_pfMask _ h.1]; rfl
    · rw [if_neg hj]; rfl
  · rw [if_neg h, Device.reg_orReg]; rfl

/-- The reinjection fire leaves PF set and every other register as it was. -/
theorem fireReinject_reg (c : Config) (d : Device) (j : Byte) :
    (d.fireReinject c).reg j = if regC = j then d.reg j ||| 0x40 else d.reg j := by
  rcases fireReinject_fields c d with ⟨h, e⟩ | ⟨_, e⟩ <;> rw [e]
  · by_cases hj : regC = j
    · subst hj; rw [if_pos rfl, or_pfMask _ h]; rfl
    · rw [if_neg hj]; rfl
  · exact Device.reg_orReg d regC j 0x40

theorem alarmMatches_congr (d e : Device) (h : ∀ j, j ≠ regC → e.reg j = d.reg j) : e.alarmMatches = d.alarmMatches := by
  unfold Device.alarmMatches
  rw [h _ (by decide), h _ (by decide), h _ (by decide), h _ (by decide), h _ (by decide), h _ (by decide)]

/-- The update fire leaves the encoded new time everywhere but in the status register, where UF and, on a match, AF are
set beside what stood there. -/
theorem fireUpdate_reg (c : Config) (now : Nat) (d : Device) (j : Byte) :
    (d.fireUpdate c now).reg j =
      if regC = j then d.reg regC ||| 0x10 ||| (if (d.fireUpdate c now).alarmMatches then 0x20 else 0x00)
      else (d.encodeTime (addSeconds c.baseYear d.decodeTime (secondsToApply c (d.owed now)))).reg j := by
  have fires : ∀ (e : Device) (b : TimeBase) (j : Byte), e.reg regC = d.reg regC →
      Device.reg
        { (if (e.orReg regC ufMask).alarmMatches then (e.orReg regC ufMask).orReg regC afMask
            else e.orReg regC ufMask) with timeBase := b } j =
        if regC = j then d.reg regC ||| 0x10 ||| (if e.alarmMatches then 0x20 else 0x00) else e.reg j := by
    intro e b j he
    have ha : (e.orReg regC ufMask).alarmMatches = e.alarmMatches :=
      alarmMatches_congr _ _ (fun j hj => by rw [Device.reg_orReg, if_neg (Ne.symm hj)])
    change Device.reg (if (e.orReg regC ufMask).alarmMatches then (e.orReg regC ufMask).orReg regC afMask
      else e.orReg regC ufMask) j = _
    rw [ha]
    by_cases hm : e.alarmMatches = true
    · rw [if_pos hm, if_pos hm, Device.reg_orReg, Device.reg_orReg]
      by_cases hj : regC = j
      · subst hj; rw [if_pos rfl, if_pos rfl, if_pos rfl, he]
      · rw [if_neg hj, if_neg hj, if_neg hj]
    · rw [if_neg hm, if_neg hm, Device.reg_orReg]
      by_cases hj : regC = j
      · subst hj; rw [if_pos rfl, if_pos rfl, he]; simp
      · rw [if_neg hj, if_neg hj]
  have stepped : (d.encodeTime (addSeconds c.baseYear d.decodeTime (secondsToApply c (d.owed now)))).reg regC =
      d.reg regC := by rw [encodeTime_reg]; rfl
  have all : ∀ j, (d.fireUpdate c now).reg j = _ := fun j => fires _ _ j stepped
  have ha := alarmMatches_congr _ (d.fireUpdate c now) (fun j hj => (all j).trans (if_neg (Ne.symm hj)))
  rw [ha]; exact all j

end Sys2Proof.Machine
end

