-- ==== Sys2Proof/Laws/PerInstr.lean ====
section
/-! SUPPORT. One lemma per constructor of Instr: the word of a well-formed instruction belongs to its row of
spec/opcode_table.json (30_encoding.md R84). -/

namespace Sys2Proof.Laws

open Sys2Proof

/-- The encoded word has the row's pattern under the row's mask. -/
def EncodesItsRow.Statement (i : Instr) : Prop := i.wellFormed = true → i.row.holds (encode i) = true

/-- A mask and a pattern written as fields decide membership field by field. -/
theorem row_holds_fields (a b c : BitVec 4) (i j k v u x : Byte) (ho : a &&& b = c) (hi : i &&& j = k) (hd : v &&& u = x) :
    (Row.mk (mkWord b j u) (mkWord c k x)).holds (mkWord a i v) = true := by
  simp [Row.holds, mkWord_and, ho, hi, hd]

theorem byte_and_zero (v : Byte) : v &&& 0x00 = 0x00 := by simp

theorem block_0E (i : Byte) (h : inBlock 0x0E 0x0F i = true) : i &&& 0xFE = 0x0E := by revert i; decide
theorem block_10 (i : Byte) (h : inBlock 0x10 0x1F i = true) : i &&& 0xF0 = 0x10 := by revert i; decide
theorem block_20 (i : Byte) (h : inBlock 0x20 0x3F i = true) : i &&& 0xE0 = 0x20 := by revert i; decide
theorem block_40 (i : Byte) (h : inBlock 0x40 0x7F i = true) : i &&& 0xC0 = 0x40 := by revert i; decide
theorem block_80 (i : Byte) (h : inBlock 0x80 0xFF i = true) : i &&& 0x80 = 0x80 := by revert i; decide

theorem EncodesItsRow.idxWr (v : Byte) : EncodesItsRow.Statement (.idxWr v) :=
  fun _ => row_holds_fields _ 0xF 0x0 _ 0xFF 0x00 _ 0x00 0x00 rfl rfl (byte_and_zero v)
theorem EncodesItsRow.idxRd : EncodesItsRow.Statement (.idxRd) :=
  fun _ => row_holds_fields _ 0xF 0x1 _ 0xFF 0x00 _ 0xFF 0x00 rfl rfl (rfl)
theorem EncodesItsRow.datWrSeconds (v : Byte) : EncodesItsRow.Statement (.datWrSeconds v) :=
  fun _ => row_holds_fields _ 0xF 0x2 _ 0xFF 0x00 _ 0x00 0x00 rfl rfl (byte_and_zero v)
theorem EncodesItsRow.datWrSecondsAlarm (v : Byte) : EncodesItsRow.Statement (.datWrSecondsAlarm v) :=
  fun _ => row_holds_fields _ 0xF 0x2 _ 0xFF 0x01 _ 0x00 0x00 rfl rfl (byte_and_zero v)
theorem EncodesItsRow.datWrMinutes (v : Byte) : EncodesItsRow.Statement (.datWrMinutes v) :=
  fun _ => row_holds_fields _ 0xF 0x2 _ 0xFF 0x02 _ 0x00 0x00 rfl rfl (byte_and_zero v)
theorem EncodesItsRow.datWrMinutesAlarm (v : Byte) : EncodesItsRow.Statement (.datWrMinutesAlarm v) :=
  fun _ => row_holds_fields _ 0xF 0x2 _ 0xFF 0x03 _ 0x00 0x00 rfl rfl (byte_and_zero v)
theorem EncodesItsRow.datWrHours (v : Byte) : EncodesItsRow.Statement (.datWrHours v) :=
  fun _ => row_holds_fields _ 0xF 0x2 _ 0xFF 0x04 _ 0x00 0x00 rfl rfl (byte_and_zero v)
theorem EncodesItsRow.datWrHoursAlarm (v : Byte) : EncodesItsRow.Statement (.datWrHoursAlarm v) :=
  fun _ => row_holds_fields _ 0xF 0x2 _ 0xFF 0x05 _ 0x00 0x00 rfl rfl (byte_and_zero v)
theorem EncodesItsRow.datWrDayOfWeek (v : Byte) : EncodesItsRow.Statement (.datWrDayOfWeek v) :=
  fun _ => row_holds_fields _ 0xF 0x2 _ 0xFF 0x06 _ 0x00 0x00 rfl rfl (byte_and_zero v)
theorem EncodesItsRow.datWrDayOfMonth (v : Byte) : EncodesItsRow.Statement (.datWrDayOfMonth v) :=
  fun _ => row_holds_fields _ 0xF 0x2 _ 0xFF 0x07 _ 0x00 0x00 rfl rfl (byte_and_zero v)
theorem EncodesItsRow.datWrMonth (v : Byte) : EncodesItsRow.Statement (.datWrMonth v) :=
  fun _ => row_holds_fields _ 0xF 0x2 _ 0xFF 0x08 _ 0x00 0x00 rfl rfl (byte_and_zero v)
theorem EncodesItsRow.datWrYear (v : Byte) : EncodesItsRow.Statement (.datWrYear v) :=
  fun _ => row_holds_fields _ 0xF 0x2 _ 0xFF 0x09 _ 0x00 0x00 rfl rfl (byte_and_zero v)
theorem EncodesItsRow.datWrRegA (v : Byte) : EncodesItsRow.Statement (.datWrRegA v) :=
  fun _ => row_holds_fields _ 0xF 0x2 _ 0xFF 0x0A _ 0x00 0x00 rfl rfl (byte_and_zero v)
theorem EncodesItsRow.datWrRegB (v : Byte) : EncodesItsRow.Statement (.datWrRegB v) :=
  fun _ => row_holds_fields _ 0xF 0x2 _ 0xFF 0x0B _ 0x00 0x00 rfl rfl (byte_and_zero v)
theorem EncodesItsRow.datWrRegC (v : Byte) : EncodesItsRow.Statement (.datWrRegC v) :=
  fun _ => row_holds_fields _ 0xF 0x2 _ 0xFF 0x0C _ 0x00 0x00 rfl rfl (byte_and_zero v)
theorem EncodesItsRow.datWrRegD (v : Byte) : EncodesItsRow.Statement (.datWrRegD v) :=
  fun _ => row_holds_fields _ 0xF 0x2 _ 0xFF 0x0D _ 0x00 0x00 rfl rfl (byte_and_zero v)
theorem EncodesItsRow.datWrNvram0E (idx v : Byte) : EncodesItsRow.Statement (.datWrNvram0E idx v) :=
  fun h => row_holds_fields _ 0xF 0x2 _ 0xFE 0x0E _ 0x00 0x00 rfl (block_0E idx h) (byte_and_zero v)
theorem EncodesItsRow.datWrNvram10 (idx v : Byte) : EncodesItsRow.Statement (.datWrNvram10 idx v) :=
  fun h => row_holds_fields _ 0xF 0x2 _ 0xF0 0x10 _ 0x00 0x00 rfl (block_10 idx h) (byte_and_zero v)
theorem EncodesItsRow.datWrNvram20 (idx v : Byte) : EncodesItsRow.Statement (.datWrNvram20 idx v) :=
  fun h => row_holds_fields _ 0xF 0x2 _ 0xE0 0x20 _ 0x00 0x00 rfl (block_20 idx h) (byte_and_zero v)
theorem EncodesItsRow.datWrNvram40 (idx v : Byte) : EncodesItsRow.Statement (.datWrNvram40 idx v) :=
  fun h => row_holds_fields _ 0xF 0x2 _ 0xC0 0x40 _ 0x00 0x00 rfl (block_40 idx h) (byte_and_zero v)
theorem EncodesItsRow.datWrNvram80 (idx v : Byte) : EncodesItsRow.Statement (.datWrNvram80 idx v) :=
  fun h => row_holds_fields _ 0xF 0x2 _ 0x80 0x80 _ 0x00 0x00 rfl (block_80 idx h) (byte_and_zero v)
theorem EncodesItsRow.datRdSeconds : EncodesItsRow.Statement (.datRdSeconds) :=
  fun _ => row_holds_fields _ 0xF 0x3 _ 0xFF 0x00 _ 0xFF 0x00 rfl rfl (rfl)
theorem EncodesItsRow.datRdSecondsAlarm : EncodesItsRow.Statement (.datRdSecondsAlarm) :=
  fun _ => row_holds_fields _ 0xF 0x3 _ 0xFF 0x01 _ 0xFF 0x00 rfl rfl (rfl)
theorem EncodesItsRow.datRdMinutes : EncodesItsRow.Statement (.datRdMinutes) :=
  fun _ => row_holds_fields _ 0xF 0x3 _ 0xFF 0x02 _ 0xFF 0x00 rfl rfl (rfl)
theorem EncodesItsRow.datRdMinutesAlarm : EncodesItsRow.Statement (.datRdMinutesAlarm) :=
  fun _ => row_holds_fields _ 0xF 0x3 _ 0xFF 0x03 _ 0xFF 0x00 rfl rfl (rfl)
theorem EncodesItsRow.datRdHours : EncodesItsRow.Statement (.datRdHours) :=
  fun _ => row_holds_fields _ 0xF 0x3 _ 0xFF 0x04 _ 0xFF 0x00 rfl rfl (rfl)
theorem EncodesItsRow.datRdHoursAlarm : EncodesItsRow.Statement (.datRdHoursAlarm) :=
  fun _ => row_holds_fields _ 0xF 0x3 _ 0xFF 0x05 _ 0xFF 0x00 rfl rfl (rfl)
theorem EncodesItsRow.datRdDayOfWeek : EncodesItsRow.Statement (.datRdDayOfWeek) :=
  fun _ => row_holds_fields _ 0xF 0x3 _ 0xFF 0x06 _ 0xFF 0x00 rfl rfl (rfl)
theorem EncodesItsRow.datRdDayOfMonth : EncodesItsRow.Statement (.datRdDayOfMonth) :=
  fun _ => row_holds_fields _ 0xF 0x3 _ 0xFF 0x07 _ 0xFF 0x00 rfl rfl (rfl)
theorem EncodesItsRow.datRdMonth : EncodesItsRow.Statement (.datRdMonth) :=
  fun _ => row_holds_fields _ 0xF 0x3 _ 0xFF 0x08 _ 0xFF 0x00 rfl rfl (rfl)
theorem EncodesItsRow.datRdYear : EncodesItsRow.Statement (.datRdYear) :=
  fun _ => row_holds_fields _ 0xF 0x3 _ 0xFF 0x09 _ 0xFF 0x00 rfl rfl (rfl)
theorem EncodesItsRow.datRdRegA : EncodesItsRow.Statement (.datRdRegA) :=
  fun _ => row_holds_fields _ 0xF 0x3 _ 0xFF 0x0A _ 0xFF 0x00 rfl rfl (rfl)
theorem EncodesItsRow.datRdRegB : EncodesItsRow.Statement (.datRdRegB) :=
  fun _ => row_holds_fields _ 0xF 0x3 _ 0xFF 0x0B _ 0xFF 0x00 rfl rfl (rfl)
theorem EncodesItsRow.datRdRegC : EncodesItsRow.Statement (.datRdRegC) :=
  fun _ => row_holds_fields _ 0xF 0x3 _ 0xFF 0x0C _ 0xFF 0x00 rfl rfl (rfl)
theorem EncodesItsRow.datRdRegD : EncodesItsRow.Statement (.datRdRegD) :=
  fun _ => row_holds_fields _ 0xF 0x3 _ 0xFF 0x0D _ 0xFF 0x00 rfl rfl (rfl)
theorem EncodesItsRow.datRdNvram0E (idx : Byte) : EncodesItsRow.Statement (.datRdNvram0E idx) :=
  fun h => row_holds_fields _ 0xF 0x3 _ 0xFE 0x0E _ 0xFF 0x00 rfl (block_0E idx h) (rfl)
theorem EncodesItsRow.datRdNvram10 (idx : Byte) : EncodesItsRow.Statement (.datRdNvram10 idx) :=
  fun h => row_holds_fields _ 0xF 0x3 _ 0xF0 0x10 _ 0xFF 0x00 rfl (block_10 idx h) (rfl)
theorem EncodesItsRow.datRdNvram20 (idx : Byte) : EncodesItsRow.Statement (.datRdNvram20 idx) :=
  fun h => row_holds_fields _ 0xF 0x3 _ 0xE0 0x20 _ 0xFF 0x00 rfl (block_20 idx h) (rfl)
theorem EncodesItsRow.datRdNvram40 (idx : Byte) : EncodesItsRow.Statement (.datRdNvram40 idx) :=
  fun h => row_holds_fields _ 0xF 0x3 _ 0xC0 0x40 _ 0xFF 0x00 rfl (block_40 idx h) (rfl)
theorem EncodesItsRow.datRdNvram80 (idx : Byte) : EncodesItsRow.Statement (.datRdNvram80 idx) :=
  fun h => row_holds_fields _ 0xF 0x3 _ 0x80 0x80 _ 0xFF 0x00 rfl (block_80 idx h) (rfl)
theorem EncodesItsRow.setByteSeconds (v : Byte) : EncodesItsRow.Statement (.setByteSeconds v) :=
  fun _ => row_holds_fields _ 0xF 0x4 _ 0xFF 0x00 _ 0x00 0x00 rfl rfl (byte_and_zero v)
theorem EncodesItsRow.setByteSecondsAlarm (v : Byte) : EncodesItsRow.Statement (.setByteSecondsAlarm v) :=
  fun _ => row_holds_fields _ 0xF 0x4 _ 0xFF 0x01 _ 0x00 0x00 rfl rfl (byte_and_zero v)
theorem EncodesItsRow.setByteMinutes (v : Byte) : EncodesItsRow.Statement (.setByteMinutes v) :=
  fun _ => row_holds_fields _ 0xF 0x4 _ 0xFF 0x02 _ 0x00 0x00 rfl rfl (byte_and_zero v)
theorem EncodesItsRow.setByteMinutesAlarm (v : Byte) : EncodesItsRow.Statement (.setByteMinutesAlarm v) :=
  fun _ => row_holds_fields _ 0xF 0x4 _ 0xFF 0x03 _ 0x00 0x00 rfl rfl (byte_and_zero v)
theorem EncodesItsRow.setByteHours (v : Byte) : EncodesItsRow.Statement (.setByteHours v) :=
  fun _ => row_holds_fields _ 0xF 0x4 _ 0xFF 0x04 _ 0x00 0x00 rfl rfl (byte_and_zero v)
theorem EncodesItsRow.setByteHoursAlarm (v : Byte) : EncodesItsRow.Statement (.setByteHoursAlarm v) :=
  fun _ => row_holds_fields _ 0xF 0x4 _ 0xFF 0x05 _ 0x00 0x00 rfl rfl (byte_and_zero v)
theorem EncodesItsRow.setByteDayOfWeek (v : Byte) : EncodesItsRow.Statement (.setByteDayOfWeek v) :=
  fun _ => row_holds_fields _ 0xF 0x4 _ 0xFF 0x06 _ 0x00 0x00 rfl rfl (byte_and_zero v)
theorem EncodesItsRow.setByteDayOfMonth (v : Byte) : EncodesItsRow.Statement (.setByteDayOfMonth v) :=
  fun _ => row_holds_fields _ 0xF 0x4 _ 0xFF 0x07 _ 0x00 0x00 rfl rfl (byte_and_zero v)
theorem EncodesItsRow.setByteMonth (v : Byte) : EncodesItsRow.Statement (.setByteMonth v) :=
  fun _ => row_holds_fields _ 0xF 0x4 _ 0xFF 0x08 _ 0x00 0x00 rfl rfl (byte_and_zero v)
theorem EncodesItsRow.setByteYear (v : Byte) : EncodesItsRow.Statement (.setByteYear v) :=
  fun _ => row_holds_fields _ 0xF 0x4 _ 0xFF 0x09 _ 0x00 0x00 rfl rfl (byte_and_zero v)
theorem EncodesItsRow.setByteRegA (v : Byte) : EncodesItsRow.Statement (.setByteRegA v) :=
  fun _ => row_holds_fields _ 0xF 0x4 _ 0xFF 0x0A _ 0x00 0x00 rfl rfl (byte_and_zero v)
theorem EncodesItsRow.setByteRegB (v : Byte) : EncodesItsRow.Statement (.setByteRegB v) :=
  fun _ => row_holds_fields _ 0xF 0x4 _ 0xFF 0x0B _ 0x00 0x00 rfl rfl (byte_and_zero v)
theorem EncodesItsRow.setByteRegC (v : Byte) : EncodesItsRow.Statement (.setByteRegC v) :=
  fun _ => row_holds_fields _ 0xF 0x4 _ 0xFF 0x0C _ 0x00 0x00 rfl rfl (byte_and_zero v)
theorem EncodesItsRow.setByteRegD (v : Byte) : EncodesItsRow.Statement (.setByteRegD v) :=
  fun _ => row_holds_fields _ 0xF 0x4 _ 0xFF 0x0D _ 0x00 0x00 rfl rfl (byte_and_zero v)
theorem EncodesItsRow.setByteNvram0E (idx v : Byte) : EncodesItsRow.Statement (.setByteNvram0E idx v) :=
  fun h => row_holds_fields _ 0xF 0x4 _ 0xFE 0x0E _ 0x00 0x00 rfl (block_0E idx h) (byte_and_zero v)
theorem EncodesItsRow.setByteNvram10 (idx v : Byte) : EncodesItsRow.Statement (.setByteNvram10 idx v) :=
  fun h => row_holds_fields _ 0xF 0x4 _ 0xF0 0x10 _ 0x00 0x00 rfl (block_10 idx h) (byte_and_zero v)
theorem EncodesItsRow.setByteNvram20 (idx v : Byte) : EncodesItsRow.Statement (.setByteNvram20 idx v) :=
  fun h => row_holds_fields _ 0xF 0x4 _ 0xE0 0x20 _ 0x00 0x00 rfl (block_20 idx h) (byte_and_zero v)
theorem EncodesItsRow.setByteNvram40 (idx v : Byte) : EncodesItsRow.Statement (.setByteNvram40 idx v) :=
  fun h => row_holds_fields _ 0xF 0x4 _ 0xC0 0x40 _ 0x00 0x00 rfl (block_40 idx h) (byte_and_zero v)
theorem EncodesItsRow.setByteNvram80 (idx v : Byte) : EncodesItsRow.Statement (.setByteNvram80 idx v) :=
  fun h => row_holds_fields _ 0xF 0x4 _ 0x80 0x80 _ 0x00 0x00 rfl (block_80 idx h) (byte_and_zero v)
theorem EncodesItsRow.getByteSeconds : EncodesItsRow.Statement (.getByteSeconds) :=
  fun _ => row_holds_fields _ 0xF 0x5 _ 0xFF 0x00 _ 0xFF 0x00 rfl rfl (rfl)
theorem EncodesItsRow.getByteSecondsAlarm : EncodesItsRow.Statement (.getByteSecondsAlarm) :=
  fun _ => row_holds_fields _ 0xF 0x5 _ 0xFF 0x01 _ 0xFF 0x00 rfl rfl (rfl)
theorem EncodesItsRow.getByteMinutes : EncodesItsRow.Statement (.getByteMinutes) :=
  fun _ => row_holds_fields _ 0xF 0x5 _ 0xFF 0x02 _ 0xFF 0x00 rfl rfl (rfl)
theorem EncodesItsRow.getByteMinutesAlarm : EncodesItsRow.Statement (.getByteMinutesAlarm) :=
  fun _ => row_holds_fields _ 0xF 0x5 _ 0xFF 0x03 _ 0xFF 0x00 rfl rfl (rfl)
theorem EncodesItsRow.getByteHours : EncodesItsRow.Statement (.getByteHours) :=
  fun _ => row_holds_fields _ 0xF 0x5 _ 0xFF 0x04 _ 0xFF 0x00 rfl rfl (rfl)
theorem EncodesItsRow.getByteHoursAlarm : EncodesItsRow.Statement (.getByteHoursAlarm) :=
  fun _ => row_holds_fields _ 0xF 0x5 _ 0xFF 0x05 _ 0xFF 0x00 rfl rfl (rfl)
theorem EncodesItsRow.getByteDayOfWeek : EncodesItsRow.Statement (.getByteDayOfWeek) :=
  fun _ => row_holds_fields _ 0xF 0x5 _ 0xFF 0x06 _ 0xFF 0x00 rfl rfl (rfl)
theorem EncodesItsRow.getByteDayOfMonth : EncodesItsRow.Statement (.getByteDayOfMonth) :=
  fun _ => row_holds_fields _ 0xF 0x5 _ 0xFF 0x07 _ 0xFF 0x00 rfl rfl (rfl)
theorem EncodesItsRow.getByteMonth : EncodesItsRow.Statement (.getByteMonth) :=
  fun _ => row_holds_fields _ 0xF 0x5 _ 0xFF 0x08 _ 0xFF 0x00 rfl rfl (rfl)
theorem EncodesItsRow.getByteYear : EncodesItsRow.Statement (.getByteYear) :=
  fun _ => row_holds_fields _ 0xF 0x5 _ 0xFF 0x09 _ 0xFF 0x00 rfl rfl (rfl)
theorem EncodesItsRow.getByteRegA : EncodesItsRow.Statement (.getByteRegA) :=
  fun _ => row_holds_fields _ 0xF 0x5 _ 0xFF 0x0A _ 0xFF 0x00 rfl rfl (rfl)
theorem EncodesItsRow.getByteRegB : EncodesItsRow.Statement (.getByteRegB) :=
  fun _ => row_holds_fields _ 0xF 0x5 _ 0xFF 0x0B _ 0xFF 0x00 rfl rfl (rfl)
theorem EncodesItsRow.getByteRegC : EncodesItsRow.Statement (.getByteRegC) :=
  fun _ => row_holds_fields _ 0xF 0x5 _ 0xFF 0x0C _ 0xFF 0x00 rfl rfl (rfl)
theorem EncodesItsRow.getByteRegD : EncodesItsRow.Statement (.getByteRegD) :=
  fun _ => row_holds_fields _ 0xF 0x5 _ 0xFF 0x0D _ 0xFF 0x00 rfl rfl (rfl)
theorem EncodesItsRow.getByteNvram0E (idx : Byte) : EncodesItsRow.Statement (.getByteNvram0E idx) :=
  fun h => row_holds_fields _ 0xF 0x5 _ 0xFE 0x0E _ 0xFF 0x00 rfl (block_0E idx h) (rfl)
theorem EncodesItsRow.getByteNvram10 (idx : Byte) : EncodesItsRow.Statement (.getByteNvram10 idx) :=
  fun h => row_holds_fields _ 0xF 0x5 _ 0xF0 0x10 _ 0xFF 0x00 rfl (block_10 idx h) (rfl)
theorem EncodesItsRow.getByteNvram20 (idx : Byte) : EncodesItsRow.Statement (.getByteNvram20 idx) :=
  fun h => row_holds_fields _ 0xF 0x5 _ 0xE0 0x20 _ 0xFF 0x00 rfl (block_20 idx h) (rfl)
theorem EncodesItsRow.getByteNvram40 (idx : Byte) : EncodesItsRow.Statement (.getByteNvram40 idx) :=
  fun h => row_holds_fields _ 0xF 0x5 _ 0xC0 0x40 _ 0xFF 0x00 rfl (block_40 idx h) (rfl)
theorem EncodesItsRow.getByteNvram80 (idx : Byte) : EncodesItsRow.Statement (.getByteNvram80 idx) :=
  fun h => row_holds_fields _ 0xF 0x5 _ 0x80 0x80 _ 0xFF 0x00 rfl (block_80 idx h) (rfl)
theorem EncodesItsRow.rstReinj : EncodesItsRow.Statement (.rstReinj) :=
  fun _ => row_holds_fields _ 0xF 0x6 _ 0xFF 0x00 _ 0xFF 0x00 rfl rfl (rfl)
theorem EncodesItsRow.clkReset : EncodesItsRow.Statement (.clkReset) :=
  fun _ => row_holds_fields _ 0xF 0x7 _ 0xFF 0x00 _ 0xFF 0x00 rfl rfl (rfl)
theorem EncodesItsRow.suspend : EncodesItsRow.Statement (.suspend) :=
  fun _ => row_holds_fields _ 0xF 0x8 _ 0xFF 0x00 _ 0xFF 0x00 rfl rfl (rfl)
theorem EncodesItsRow.resume : EncodesItsRow.Statement (.resume) :=
  fun _ => row_holds_fields _ 0xF 0x9 _ 0xFF 0x00 _ 0xFF 0x00 rfl rfl (rfl)
theorem EncodesItsRow.evPeriodic : EncodesItsRow.Statement (.evPeriodic) :=
  fun _ => row_holds_fields _ 0xF 0xA _ 0xFF 0x00 _ 0xFF 0x00 rfl rfl (rfl)
theorem EncodesItsRow.evUpdate : EncodesItsRow.Statement (.evUpdate) :=
  fun _ => row_holds_fields _ 0xF 0xB _ 0xFF 0x00 _ 0xFF 0x00 rfl rfl (rfl)
theorem EncodesItsRow.evReinject : EncodesItsRow.Statement (.evReinject) :=
  fun _ => row_holds_fields _ 0xF 0xC _ 0xFF 0x00 _ 0xFF 0x00 rfl rfl (rfl)
theorem EncodesItsRow.init : EncodesItsRow.Statement (.init) :=
  fun _ => row_holds_fields _ 0xF 0xD _ 0xFF 0x00 _ 0xFF 0x00 rfl rfl (rfl)
theorem EncodesItsRow.teardown : EncodesItsRow.Statement (.teardown) :=
  fun _ => row_holds_fields _ 0xF 0xE _ 0xFF 0x00 _ 0xFF 0x00 rfl rfl (rfl)

end Sys2Proof.Laws
end

