-- ==== Sys2Proof/Tests/Slice0.lean ====
section
/-! SUPPORT. The model's own tests, named theorems all: the ill-formed terms that `wellFormed` refuses, the words of
spec/opcode_table.json written out bit by bit (op in bits 19:16, idx in 15:8, data in 7:0, 30_encoding.md R80, R81), one
step at a time with the values of 95_test_vectors.md, and a witness for the hypotheses of every obligation. -/

namespace Sys2Proof.Tests

open Sys2Proof Sys2Proof.Machine

/-! Helpers -/

/-- The outcome is a next state of which `p` holds. -/
def gives (o : Result) (p : State → Bool) : Bool :=
  match o with
  | .next t => p t
  | _ => false

/-- The outcome is the refusal `r`. -/
def refuses (o : Result) (r : Refusal) : Bool :=
  match o with
  | .refused q => decide (q = r)
  | _ => false

theorem next_of_gives {o : Result} {p : State → Bool} (h : gives o p = true) : ∃ t, o = .next t ∧ p t = true := by
  cases o with
  | next t => exact ⟨t, rfl, h⟩
  | fault r => cases h
  | refused r => cases h

/-- The state after reset with these register bytes and this selected index. -/
def at0 (writes : List (Byte × Byte)) (selected : Byte := 0x00) : State :=
  { State.reset with
    dev := { writes.foldl (fun d w => d.setReg w.1 w.2) State.reset.dev with selectedIndex := selected } }

/-- `s` with its time argument, for `exec`. -/
def atTime (s : State) (now : Nat) : State := { s with time := now }

/-- One step on a transaction word with its time argument. -/
def run (s : State) (w : TWord) (now : Nat) : Result := step { s with inputs := [.word w now] }

/-- The fourteen registers 0x00 to 0x0D. -/
def regs (s : State) : List Byte := (List.range 14).map (fun i => s.dev.reg (BitVec.ofNat 8 i))

/-- The seven time registers in index order, as 95_test_vectors.md V41-3 lists them. -/
def timeBytes (d : Device) : List Byte :=
  [d.reg 0x00, d.reg 0x02, d.reg 0x04, d.reg 0x06, d.reg 0x07, d.reg 0x08, d.reg 0x09]

/-- A device record with these seven time bytes and control register B. -/
def clock (b : Byte) (t : List Byte) : Device :=
  ((([0x00, 0x02, 0x04, 0x06, 0x07, 0x08, 0x09] : List Byte).zip t) ++ [((0x0B : Byte), b)]).foldl
    (fun (d : Device) (w : Byte × Byte) => d.setReg w.1 w.2) State.reset.dev

/-! Ill-formed terms: an NVRAM index below and above its block -/

theorem test_ill_formed_indices_refused :
    ∀ i ∈ ([.datWrNvram0E 0x0D 0x00, .datWrNvram0E 0x10 0x00, .datWrNvram10 0x0F 0x00, .datWrNvram10 0x20 0x00,
      .datWrNvram20 0x1F 0x00, .datWrNvram20 0x40 0x00, .datWrNvram40 0x3F 0x00, .datWrNvram40 0x80 0x00,
      .datWrNvram80 0x7F 0x00, .datRdNvram0E 0x0D, .datRdNvram0E 0x10, .datRdNvram10 0x0F, .datRdNvram10 0x20,
      .datRdNvram20 0x1F, .datRdNvram20 0x40, .datRdNvram40 0x3F, .datRdNvram40 0x80, .datRdNvram80 0x7F,
      .setByteNvram0E 0x0D 0x00, .setByteNvram0E 0x10 0x00, .setByteNvram10 0x0F 0x00, .setByteNvram10 0x20 0x00,
      .setByteNvram20 0x1F 0x00, .setByteNvram20 0x40 0x00, .setByteNvram40 0x3F 0x00, .setByteNvram40 0x80 0x00,
      .setByteNvram80 0x7F 0x00, .getByteNvram0E 0x0D, .getByteNvram0E 0x10, .getByteNvram10 0x0F,
      .getByteNvram10 0x20, .getByteNvram20 0x1F, .getByteNvram20 0x40, .getByteNvram40 0x3F, .getByteNvram40 0x80,
      .getByteNvram80 0x7F] : List Instr),
      i.wellFormed = false := by decide

/-! Decoding, one word or more for every constructor -/

theorem test_decode_dat_wr :
    ∀ p ∈ ([(0x20059, .datWrSeconds 0x59), (0x20160, .datWrSecondsAlarm 0x60), (0x20267, .datWrMinutes 0x67),
      (0x2036E, .datWrMinutesAlarm 0x6E), (0x20475, .datWrHours 0x75), (0x2057C, .datWrHoursAlarm 0x7C),
      (0x20683, .datWrDayOfWeek 0x83), (0x2078A, .datWrDayOfMonth 0x8A), (0x20891, .datWrMonth 0x91),
      (0x20998, .datWrYear 0x98), (0x20A9F, .datWrRegA 0x9F), (0x20BA6, .datWrRegB 0xA6),
      (0x20CAD, .datWrRegC 0xAD), (0x20DB4, .datWrRegD 0xB4), (0x20EBB, .datWrNvram0E 0x0E 0xBB),
      (0x20FC2, .datWrNvram0E 0x0F 0xC2), (0x210C9, .datWrNvram10 0x10 0xC9), (0x21F32, .datWrNvram10 0x1F 0x32),
      (0x22039, .datWrNvram20 0x20 0x39), (0x23F12, .datWrNvram20 0x3F 0x12), (0x24019, .datWrNvram40 0x40 0x19),
      (0x27FD2, .datWrNvram40 0x7F 0xD2), (0x280D9, .datWrNvram80 0x80 0xD9), (0x2FF52, .datWrNvram80 0xFF 0x52)] : List (TWord × Instr)),
      decode p.1 = .ok p.2 := by decide

theorem test_decode_dat_rd :
    ∀ p ∈ ([(0x30000, .datRdSeconds), (0x30100, .datRdSecondsAlarm), (0x30200, .datRdMinutes),
      (0x30300, .datRdMinutesAlarm), (0x30400, .datRdHours), (0x30500, .datRdHoursAlarm),
      (0x30600, .datRdDayOfWeek), (0x30700, .datRdDayOfMonth), (0x30800, .datRdMonth), (0x30900, .datRdYear),
      (0x30A00, .datRdRegA), (0x30B00, .datRdRegB), (0x30C00, .datRdRegC), (0x30D00, .datRdRegD),
      (0x30E00, .datRdNvram0E 0x0E), (0x30F00, .datRdNvram0E 0x0F), (0x31000, .datRdNvram10 0x10),
      (0x31F00, .datRdNvram10 0x1F), (0x32000, .datRdNvram20 0x20), (0x33F00, .datRdNvram20 0x3F),
      (0x34000, .datRdNvram40 0x40), (0x37F00, .datRdNvram40 0x7F), (0x38000, .datRdNvram80 0x80),
      (0x3FF00, .datRdNvram80 0xFF)] : List (TWord × Instr)),
      decode p.1 = .ok p.2 := by decide

theorem test_decode_set_byte :
    ∀ p ∈ ([(0x40059, .setByteSeconds 0x59), (0x40160, .setByteSecondsAlarm 0x60), (0x40267, .setByteMinutes 0x67),
      (0x4036E, .setByteMinutesAlarm 0x6E), (0x40475, .setByteHours 0x75), (0x4057C, .setByteHoursAlarm 0x7C),
      (0x40683, .setByteDayOfWeek 0x83), (0x4078A, .setByteDayOfMonth 0x8A), (0x40891, .setByteMonth 0x91),
      (0x40998, .setByteYear 0x98), (0x40A9F, .setByteRegA 0x9F), (0x40BA6, .setByteRegB 0xA6),
      (0x40CAD, .setByteRegC 0xAD), (0x40DB4, .setByteRegD 0xB4), (0x40EBB, .setByteNvram0E 0x0E 0xBB),
      (0x40FC2, .setByteNvram0E 0x0F 0xC2), (0x410C9, .setByteNvram10 0x10 0xC9),
      (0x41F32, .setByteNvram10 0x1F 0x32), (0x42039, .setByteNvram20 0x20 0x39),
      (0x43F12, .setByteNvram20 0x3F 0x12), (0x44019, .setByteNvram40 0x40 0x19),
      (0x47FD2, .setByteNvram40 0x7F 0xD2), (0x480D9, .setByteNvram80 0x80 0xD9),
      (0x4FF52, .setByteNvram80 0xFF 0x52)] : List (TWord × Instr)),
      decode p.1 = .ok p.2 := by decide

theorem test_decode_get_byte :
    ∀ p ∈ ([(0x50000, .getByteSeconds), (0x50100, .getByteSecondsAlarm), (0x50200, .getByteMinutes),
      (0x50300, .getByteMinutesAlarm), (0x50400, .getByteHours), (0x50500, .getByteHoursAlarm),
      (0x50600, .getByteDayOfWeek), (0x50700, .getByteDayOfMonth), (0x50800, .getByteMonth),
      (0x50900, .getByteYear), (0x50A00, .getByteRegA), (0x50B00, .getByteRegB), (0x50C00, .getByteRegC),
      (0x50D00, .getByteRegD), (0x50E00, .getByteNvram0E 0x0E), (0x50F00, .getByteNvram0E 0x0F),
      (0x51000, .getByteNvram10 0x10), (0x51F00, .getByteNvram10 0x1F), (0x52000, .getByteNvram20 0x20),
      (0x53F00, .getByteNvram20 0x3F), (0x54000, .getByteNvram40 0x40), (0x57F00, .getByteNvram40 0x7F),
      (0x58000, .getByteNvram80 0x80), (0x5FF00, .getByteNvram80 0xFF)] : List (TWord × Instr)),
      decode p.1 = .ok p.2 := by decide

theorem test_decode_others :
    decode 0x0000D = .ok (.idxWr 0x0D) ∧ decode 0x000FF = .ok (.idxWr 0xFF) ∧ decode 0x10000 = .ok .idxRd ∧
    decode 0x60000 = .ok .rstReinj ∧ decode 0x70000 = .ok .clkReset ∧ decode 0x80000 = .ok .suspend ∧
    decode 0x90000 = .ok .resume ∧ decode 0xA0000 = .ok .evPeriodic ∧ decode 0xB0000 = .ok .evUpdate ∧
    decode 0xC0000 = .ok .evReinject ∧ decode 0xD0000 = .ok .init ∧ decode 0xE0000 = .ok .teardown := by decide

/-- V60-1, code 1. -/
theorem test_reserved_words :
    decode 0xF0000 = .error .reservedOp ∧ decode 0x00100 = .error .idxNotZero ∧ decode 0x30C01 = .error .dataNotZero ∧
    decode 0xB0001 = .error .dataNotZero ∧ decode 0x61000 = .error .idxNotZero ∧ decode 0x50A80 = .error .dataNotZero :=
  by decide

theorem test_table_words :
    decodeTableWord 24 0x27F22 = some (.datWrNvram40 0x7F 0x22) ∧ decodeTableWord 20 0xE0000 = some .teardown ∧
    decodeTableWord 24 0x1E0000 = none ∧ decodeTableWord 24 0xF0000 = none := by decide

/-! Fetch -/

/-- V40-1 step 18: the data port acts on the selected index, whatever `idx` the word carries. -/
theorem test_fetch_resolves_index :
    gives (run (at0 [] 0x09) 0x20023 7) (fun t => t.dev.reg regYear == 0x23 && t.dev.reg regSeconds == 0x00) = true := by
  decide

theorem test_withFetchWord_runs :
    gives (step (State.reset.withFetchWord 24 0x27F22)) (fun t => t.dev.reg 0x7F == 0x22) = true ∧
    gives (step (State.reset.withFetchWord 24 0xA0000)) (fun t => t.dev.pf && t.lastNow == 32) = true ∧
    gives (step (State.reset.withFetchWord 24 0xB0000)) (fun t => t.dev.reg regSeconds == 0x01) = true ∧
    refuses (step (State.reset.withFetchWord 24 0xC0000)) .notEnabled = true ∧
    refuses (step (State.reset.withFetchWord 24 0xD0000)) .wrongPhase = true ∧
    refuses (step (State.reset.withFetchWord 24 0xF0000)) .reservedWord = true := by decide

theorem test_idle_step : step State.reset = .next State.reset := rfl

/-! Ports, 40_port_access.md -/

/-- V40-1 steps 4 and 3. -/
theorem test_select_write_and_read :
    gives (run State.reset 0x0000D 2) (fun t => t.dev.selectedIndex == 0x0D && t.ret == none && t.lastNow == 2) = true ∧
    gives (run State.reset 0x10000 1) (fun t => t.ret == some 0xFF && t.dev == State.reset.dev) = true := by decide

/-- V40-1 steps 18 and 21, V40-2 and P1: every plain register stores the written byte, whole. -/
theorem test_dat_wr_plain :
    ([0x00, 0x01, 0x02, 0x03, 0x04, 0x05, 0x06, 0x07, 0x08, 0x09, 0x0B, 0x0E, 0x0F, 0x10, 0x1F, 0x20, 0x3F,
      0x40, 0x7F, 0x80, 0xFF] : List Byte).all (fun i =>
      gives (run (at0 [] i) 0x200A5 30) (fun t => t.dev.reg i == 0xA5 && t.dev.selectedIndex == i &&
        t.dev == (State.reset.dev.setReg i 0xA5 |> fun d => { d with selectedIndex := i }) && t.edge == none)) = true := by
  decide +kernel

/-- V40-1 step 9: bit 7 is dropped, the timer restarts. -/
theorem test_dat_wr_regA :
    gives (run (at0 [] 0x0A) 0x20AAF 20) (fun t =>
      t.dev.reg regA == 0x2F && t.dev.nextPeriodicDeadline == some 16404) = true := by decide

/-- V40-1 steps 15 and 6. -/
theorem test_dat_wr_regC_regD :
    gives (run (at0 [(0x0C, 0x40)] 0x0C) 0x20CFF 23) (fun t => t.dev.reg regC == 0x40) = true ∧
    gives (run (at0 [] 0x0D) 0x20D00 3) (fun t => t.dev.reg regD == 0x80) = true := by decide

/-- V40-3 steps 4 and 7: a write of REG_B moves the line at once. -/
theorem test_dat_wr_regB_moves_line :
    gives (run (at0 [(0x0C, 0x40)] 0x0B) 0x20B42 40) (fun t =>
      t.edge == some .assert && t.sink == [.assert] && t.dev.line) = true ∧
    gives (run (at0 [(0x0C, 0x40), (0x0B, 0x42)] 0x0B) 0x20B02 42) (fun t =>
      t.edge == some .deassert && !t.dev.line && t.dev.reg regC == 0x40) = true := by decide

/-- V40-1 and V40-2: every plain register reads as stored. -/
theorem test_dat_rd_plain :
    ([0x00, 0x01, 0x02, 0x03, 0x04, 0x05, 0x06, 0x07, 0x08, 0x09, 0x0A, 0x0B, 0x0E, 0x0F, 0x10, 0x1F, 0x20,
      0x3F, 0x40, 0x7F, 0x80, 0xFF] : List Byte).all (fun i =>
      gives (run (at0 [(i, 0x5A)] i) 0x30000 34) (fun t => t.ret == some 0x5A && t.dev == (at0 [(i, 0x5A)] i).dev)) = true :=
  by decide +kernel

/-- V40-1 step 5. -/
theorem test_dat_rd_regD : gives (run (at0 [] 0x0D) 0x30D00 2) (fun t => t.ret == some 0x80) = true := by decide

/-- V43-3, each row: the byte returned and the edge; the flags are cleared. -/
theorem test_dat_rd_regC :
    ∀ r ∈ ([(0x00, 0x72, 0x00, none), (0x70, 0x02, 0x70, none), (0x70, 0x72, 0xF0, some .deassert),
      (0x70, 0x42, 0xF0, some .deassert), (0x40, 0x32, 0x40, none), (0x10, 0x12, 0x90, some .deassert),
      (0x30, 0x22, 0xB0, some .deassert), (0x20, 0x52, 0x20, none), (0x50, 0x52, 0xD0, some .deassert)] :
      List (Byte × Byte × Byte × Option Edge)),
      gives (run (at0 [(0x0C, r.1), (0x0B, r.2.1)] 0x0C) 0x30C00 50) (fun t =>
        t.ret == some r.2.2.1 && t.edge == r.2.2.2 && t.dev.reg regC == 0x00) = true := by decide +kernel

/-- V44-1 step 13 and V44-3: an acknowledgment takes one from the backlog, even with a reinjection already pending. -/
theorem test_dat_rd_regC_acknowledges :
    gives (exec .datRdRegC { at0 [(0x0C, 0x40), (0x0B, 0x42)] with
        dev := { (at0 [(0x0C, 0x40), (0x0B, 0x42)]).dev with coalescedCount := 3 } }) (fun t =>
      t.dev.coalescedCount == 2 && t.dev.reinjectPending && t.ret == some 0xC0) = true ∧
    gives (exec .datRdRegC { at0 [] with dev := { (at0 []).dev with coalescedCount := 1, reinjectPending := true } })
      (fun t => t.dev.coalescedCount == 0 && t.dev.reinjectPending && t.ret == some 0x00) = true := by decide

/-! Direct accessors, 47_platform_ops.md -/

/-- V47-3 steps 3 and 12, and the same at every plain register: SET_BYTE does what the data port does. -/
theorem test_set_byte_plain :
    ([0x00, 0x01, 0x02, 0x03, 0x04, 0x05, 0x06, 0x07, 0x08, 0x09, 0x0B, 0x0E, 0x0F, 0x10, 0x1F, 0x20, 0x3F,
      0x40, 0x7F, 0x80, 0xFF] : List Byte).all (fun i =>
      gives (step { State.reset with inputs := [.setCmosByte i.toNat 0xA5 5] }) (fun t =>
        t.dev == State.reset.dev.setReg i 0xA5 && t.ret == none)) = true := by decide

/-- V47-3 steps 5, 10, 12 and 13. -/
theorem test_set_byte_control :
    gives (run State.reset 0x40AAD 7) (fun t =>
      t.dev.reg regA == 0x2D && t.dev.nextPeriodicDeadline == some 4103) = true ∧
    gives (run (at0 [(0x0C, 0x40)]) 0x40B42 4106) (fun t => t.edge == some .assert) = true ∧
    gives (run (at0 [(0x0C, 0x40)]) 0x40C00 4108) (fun t => t.dev.reg regC == 0x40) = true ∧
    gives (run State.reset 0x40D00 4108) (fun t => t.dev.reg regD == 0x80) = true := by decide

/-- V47-3 step 4, and the same at every plain register. -/
theorem test_get_byte_plain :
    ([0x00, 0x01, 0x02, 0x03, 0x04, 0x05, 0x06, 0x07, 0x08, 0x09, 0x0A, 0x0B, 0x0E, 0x0F, 0x10, 0x1F, 0x20,
      0x3F, 0x40, 0x7F, 0x80, 0xFF] : List Byte).all (fun i =>
      gives (step { at0 [(i, 0x5A)] with inputs := [.getCmosByte i.toNat 6] }) (fun t =>
        t.ret == some 0x5A && t.dev == (at0 [(i, 0x5A)]).dev)) = true := by decide

/-- V47-3 steps 11 and 14: GET_BYTE at 0x0C shows IRQF and clears nothing. -/
theorem test_get_byte_control :
    gives (run (at0 [(0x0C, 0x40), (0x0B, 0x42)]) 0x50C00 4107) (fun t =>
      t.ret == some 0xC0 && t.dev.reg regC == 0x40 && t.edge == none) = true ∧
    gives (run State.reset 0x50D00 4109) (fun t => t.ret == some 0x80) = true := by decide

/-- V47-3 steps 15 and 16. -/
theorem test_address_out_of_range :
    refuses (step { State.reset with inputs := [.setCmosByte 0x100 0x00 4110] }) .addrOutOfRange = true ∧
    refuses (step { State.reset with inputs := [.getCmosByte 0x1FF 4110] }) .addrOutOfRange = true := by decide

/-- V60-2: 2 before 3 before 6, and 3 before 4. -/
theorem test_order_of_refusals :
    refuses (exec .evUpdate
      { atTime State.reset 10 with lastNow := 100, dev := { State.reset.dev with phase := .suspended } }) .wrongPhase = true ∧
    refuses (step { State.reset with lastNow := 100, inputs := [.getCmosByte 0x100 99] }) .timeWentBack = true := by
  decide

/-! The codec, 41_codec.md -/

/-- V41-1. -/
theorem test_bcd :
    [0x00, 0x09, 0x0A, 0x10, 0x59, 0x7F, 0x99, 0xFF].map fromBCD = [0, 9, 10, 10, 59, 85, 99, 165] ∧
    [0, 9, 10, 59, 60, 85, 99, 100, 165, 255].map toBCD =
      [0x00, 0x09, 0x10, 0x59, 0x60, 0x85, 0x99, 0xA0, 0x05, 0x95] := by decide

/-- V41-2. -/
theorem test_decode_hour :
    [0x12, 0x92, 0x01, 0x81, 0x11, 0x91, 0x00, 0x80, 0x13, 0x93].map (decodeHour · false false) =
      [0, 12, 1, 13, 11, 23, 0, 12, 1, 13] ∧
    [0x0C, 0x8C, 0x8B].map (decodeHour · true false) = [0, 12, 23] ∧
    [0x23, 0xA3, 0x24, 0x7F].map (decodeHour · false true) = [23, 23, 24, 85] ∧ decodeHour 0x17 true true = 23 := by
  decide

/-- V41-3, both times in all four modes. -/
theorem test_encode_modes :
    ∀ r ∈ ([(0x00, [0x58, 0x59, 0x91, 0x07, 0x31, 0x12, 0x99], [0x00, 0x07, 0x12, 0x01, 0x29, 0x02, 0x24]),
      (0x02, [0x58, 0x59, 0x23, 0x07, 0x31, 0x12, 0x99], [0x00, 0x07, 0x00, 0x01, 0x29, 0x02, 0x24]),
      (0x04, [0x3A, 0x3B, 0x8B, 0x07, 0x1F, 0x0C, 0x63], [0x00, 0x07, 0x0C, 0x01, 0x1D, 0x02, 0x18]),
      (0x06, [0x3A, 0x3B, 0x17, 0x07, 0x1F, 0x0C, 0x63], [0x00, 0x07, 0x00, 0x01, 0x1D, 0x02, 0x18])] :
      List (Byte × List Byte × List Byte)),
      timeBytes ((clock r.1 []).encodeTime ⟨58, 59, 23, 7, 31, 12, 99⟩) = r.2.1 ∧
      timeBytes ((clock r.1 []).encodeTime ⟨0, 7, 0, 1, 29, 2, 24⟩) = r.2.2 := by decide +kernel

/-- V41-5: leap years by both base years, the wraps, and fields that are not valid. -/
theorem test_tick1 :
    tick1 2000 ⟨59, 59, 23, 7, 31, 12, 99⟩ = ⟨0, 0, 0, 1, 1, 1, 0⟩ ∧
    tick1 2000 ⟨59, 59, 23, 4, 28, 2, 24⟩ = ⟨0, 0, 0, 5, 29, 2, 24⟩ ∧
    tick1 2000 ⟨59, 59, 23, 4, 28, 2, 23⟩ = ⟨0, 0, 0, 5, 1, 3, 23⟩ ∧
    tick1 2000 ⟨59, 59, 23, 4, 28, 2, 0⟩ = ⟨0, 0, 0, 5, 29, 2, 0⟩ ∧
    tick1 1900 ⟨59, 59, 23, 4, 28, 2, 0⟩ = ⟨0, 0, 0, 5, 1, 3, 0⟩ ∧
    tick1 2000 ⟨85, 10, 10, 1, 1, 1, 0⟩ = ⟨0, 11, 10, 1, 1, 1, 0⟩ ∧
    tick1 2000 ⟨30, 75, 10, 1, 1, 1, 0⟩ = ⟨31, 75, 10, 1, 1, 1, 0⟩ ∧
    tick1 2000 ⟨59, 59, 23, 9, 0, 1, 0⟩ = ⟨0, 0, 0, 1, 1, 1, 0⟩ ∧
    tick1 2000 ⟨59, 59, 23, 1, 31, 13, 0⟩ = ⟨0, 0, 0, 2, 1, 1, 1⟩ ∧
    tick1 2000 ⟨59, 59, 23, 1, 31, 12, 150⟩ = ⟨0, 0, 0, 2, 1, 1, 0⟩ := by decide

/-! Timer events -/

/-- V42-3 and V42-4: rows 1, 5, 6, 8 and 10, by (PIE, PF, periods, backlog before; backlog after, edge). -/
theorem test_ev_periodic :
    ∀ r ∈ ([(0x02, 0x00, 1, 0, 0, none), (0x42, 0x00, 1, 0, 0, some .assert), (0x42, 0x40, 1, 0, 1, none),
      (0x42, 0x40, 3, 0, 3, none), (0x42, 0x00, 9, 0, 3, some .assert)] :
      List (Byte × Byte × Nat × Nat × Nat × Option Edge)),
      gives (exec .evPeriodic
        (atTime { at0 [(0x0B, r.1), (0x0C, r.2.1)] with
            dev := { (at0 [(0x0B, r.1), (0x0C, r.2.1)]).dev with coalescedCount := r.2.2.2.1 } } (r.2.2.1 * 32 + 5)))
        (fun t => t.dev.pf && t.dev.coalescedCount == r.2.2.2.2.1 && t.edge == r.2.2.2.2.2 &&
          t.dev.nextPeriodicDeadline == some (32 * r.2.2.1 + 32)) = true := by decide +kernel

/-- V42-3 and V60-1: early, and not armed. -/
theorem test_ev_periodic_not_enabled :
    refuses (exec .evPeriodic (atTime State.reset 31)) .notEnabled = true ∧
    refuses (exec .evPeriodic (atTime { State.reset with
      dev := { State.reset.dev with nextPeriodicDeadline := none } } 5)) .notEnabled = true := by decide

/-- V43-1, V45-2: on time, late within tolerance, late by five periods. -/
theorem test_ev_update :
    refuses (exec .evUpdate (atTime State.reset 32767)) .notEnabled = true ∧
    gives (exec .evUpdate (atTime State.reset 40000)) (fun t =>
      t.dev.timeBase == ⟨40000, 7232⟩ && t.dev.reg regSeconds == 0x01 && t.dev.reg regC == 0x10) = true ∧
    gives (exec .evUpdate (atTime State.reset 196608)) (fun t =>
      t.dev.timeBase == ⟨196608, 0⟩ && t.dev.reg regSeconds == 0x06 && t.dev.reg regC == 0x10) = true := by decide +kernel

/-- V41-6 and V41-7 at register level: the year end in all four modes, and bytes that are not valid. -/
theorem test_ev_update_time_registers :
    ∀ r ∈ ([(0x00, [0x59, 0x59, 0x91, 0x01, 0x31, 0x12, 0x23], [0x00, 0x00, 0x12, 0x02, 0x01, 0x01, 0x24]),
      (0x02, [0x59, 0x59, 0x23, 0x05, 0x29, 0x02, 0x24], [0x00, 0x00, 0x00, 0x06, 0x01, 0x03, 0x24]),
      (0x04, [0x3B, 0x3B, 0x8B, 0x01, 0x1F, 0x0C, 0x17], [0x00, 0x00, 0x0C, 0x02, 0x01, 0x01, 0x18]),
      (0x06, [0x3B, 0x3B, 0x17, 0x05, 0x1D, 0x02, 0x18], [0x00, 0x00, 0x00, 0x06, 0x01, 0x03, 0x18]),
      (0x02, [0x30, 0xFF, 0x10, 0x01, 0x01, 0x01, 0x00], [0x31, 0x05, 0x10, 0x01, 0x01, 0x01, 0x00]),
      (0x02, [0x59, 0x59, 0x23, 0x00, 0x00, 0x00, 0xFF], [0x00, 0x00, 0x00, 0x01, 0x01, 0x00, 0x05])] :
      List (Byte × List Byte × List Byte)),
      gives (exec .evUpdate (atTime { State.reset with dev := clock r.1 r.2.1 } 32768)) (fun t =>
        timeBytes t.dev == r.2.2) = true := by decide +kernel

/-- V43-2. -/
theorem test_field_passes :
    fieldPasses 0x00 0x00 = true ∧ fieldPasses 0x01 0x00 = false ∧ fieldPasses 0x01 0xC0 = true ∧
    fieldPasses 0x01 0xBF = false ∧ fieldPasses 0x81 0x01 = false ∧ fieldPasses 0x3B 0x59 = false := by decide

/-- P3 step 9: the wildcard hour matches, AF and AIE raise the line. -/
theorem test_ev_update_alarm :
    gives (exec .evUpdate (atTime (at0 [(0x00, 0x59), (0x02, 0x29), (0x03, 0x30), (0x05, 0xFF), (0x0B, 0x22)]) 32768))
      (fun t => t.dev.reg regC == 0x30 && t.edge == some .assert) = true := by decide

/-- V45-1, rows with `o` of 65536, 65537 and 393221, under both policies. -/
theorem test_seconds_to_apply :
    [65536, 65537, 393221].map (secondsToApply Config.atReset) = [1, 2, 12] ∧
    [65536, 65537, 393221].map (secondsToApply { Config.atReset with lostTickPolicy := .slew }) = [1, 1, 2] ∧
    [131072, 393221].map (secondsToApply { Config.atReset with lostTickPolicy := .slew, slewMaxBacklog := 2 }) = [2, 10] :=
  by decide

/-- V44-1 step 14, V44-4, V44-1 step 20. -/
theorem test_ev_reinject :
    gives (exec .evReinject { at0 [(0x0B, 0x42)] with
      dev := { (at0 [(0x0B, 0x42)]).dev with reinjectPending := true, coalescedCount := 2 } }) (fun t =>
        t.edge == some .assert && t.dev.coalescedCount == 2 && !t.dev.reinjectPending) = true ∧
    gives (exec .evReinject { at0 [(0x0B, 0x42), (0x0C, 0x40)] with
      dev := { (at0 [(0x0B, 0x42), (0x0C, 0x40)]).dev with reinjectPending := true, coalescedCount := 1 } }) (fun t =>
        t.edge == none && t.dev.coalescedCount == 2 && !t.dev.reinjectPending) = true ∧
    refuses (exec .evReinject State.reset) .notEnabled = true := by decide

/-! Backlog reset, notifiers, lifecycle -/

/-- V44-5. -/
theorem test_rst_reinj :
    gives (exec .rstReinj { at0 [(0x0C, 0x40)] with
      dev := { (at0 [(0x0C, 0x40)]).dev with coalescedCount := 3, reinjectPending := true } }) (fun t =>
        t.dev == (at0 [(0x0C, 0x40)]).dev) = true := by decide

/-- V46-5: to an earlier instant. -/
theorem test_clk_reset :
    gives (exec .clkReset (atTime { State.reset with lastNow := 40000 } 500)) (fun t =>
      t.dev.timeBase == ⟨500, 0⟩ && t.dev.nextPeriodicDeadline == some 532 && t.lastNow == 500) = true := by decide

/-- V46-1 and V46-4. -/
theorem test_suspend :
    gives (run State.reset 0x80000 1000000) (fun t =>
      t.dev.phase == .suspended && t.dev.suspendInstant == some 1000000 && t.lastNow == 0) = true ∧
    refuses (exec .suspend { State.reset with dev := { State.reset.dev with phase := .suspended } }) .wrongPhase = true :=
  by decide

/-- The state after reset, suspended at wall instant 1000000. -/
def suspended (c : Config) : State :=
  { State.reset with
    config := c
    dev := { State.reset.dev with phase := .suspended, suspendRecord := some 1000000 } }

/-- V46-1, V46-2, V46-3. -/
theorem test_resume :
    gives (exec .resume (atTime (suspended Config.atReset) 1098304)) (fun t =>
      t.dev.timeBase == ⟨0, 98304⟩ && t.dev.phase == .running && t.dev.nextPeriodicDeadline == some 32) = true ∧
    gives (exec .resume (atTime (suspended { Config.atReset with suspendFrozen := true }) 1098304)) (fun t =>
      t.dev.timeBase == ⟨0, 0⟩) = true ∧
    gives (exec .resume (atTime (suspended Config.atReset) 999000)) (fun t => t.dev.timeBase == ⟨0, 0⟩) = true := by
  decide

/-- V47-4, from both phases. -/
theorem test_teardown :
    gives (exec .teardown (at0 [(0x0C, 0x40), (0x0B, 0x42)])) (fun t =>
      t.dev.phase == .tornDown && t.dev.nextPeriodicDeadline == none && t.dev.line && t.edge == none) = true ∧
    gives (exec .teardown (suspended Config.atReset)) (fun t =>
      t.dev.phase == .tornDown && t.dev.suspendRecord == some 1000000 && t.dev.suspendInstant == none) = true ∧
    refuses (exec .teardown { State.reset with dev := { State.reset.dev with phase := .tornDown } }) .wrongPhase = true :=
  by decide

/-- A device that INIT has not reached, holding arbitrary values, and this configuration. -/
def unattached (c : Config) (now : Nat) : State :=
  { State.reset with
    config := c
    time := now
    dev :=
      { regs := [(0x0C, 0x40), (0x0B, 0x42)]
        selectedIndex := 0x55
        timeBase := ⟨9, 9⟩
        nextPeriodicDeadline := some 9
        coalescedCount := 9
        reinjectPending := true
        phase := .unattached
        suspendRecord := some 9 } }

/-- V47-1, rows 1, 3, 5 and 6. -/
theorem test_init :
    gives (exec .init (unattached Config.atReset 1000)) (fun t =>
      regs t == [0x00, 0, 0, 0, 0x12, 0, 0x01, 0x01, 0x01, 0x00, 0x26, 0x02, 0x00, 0x80] &&
      t.dev.nextPeriodicDeadline == some 1032 && t.edge == none && t.lastNow == 1000) = true ∧
    gives (exec .init (unattached
        { Config.atReset with initRegB := 0x06, initTime := ⟨58, 29, 11, 3, 15, 6, 24⟩ } 1000)) (fun t =>
      regs t == [0x3A, 0, 0x1D, 0, 0x0B, 0, 0x03, 0x0F, 0x06, 0x18, 0x26, 0x06, 0x00, 0x80]) = true ∧
    gives (exec .init (unattached
        { Config.atReset with initRegA := 0x20, initRegB := 0x00, initTime := ⟨59, 59, 23, 7, 31, 12, 99⟩ } 1000)) (fun t =>
      regs t == [0x59, 0, 0x59, 0, 0x91, 0, 0x07, 0x31, 0x12, 0x99, 0x20, 0x00, 0x00, 0x80] &&
      t.dev.nextPeriodicDeadline == none) = true ∧
    gives (exec .init (unattached
        { Config.atReset with initRegA := 0xA6, initRegB := 0xFF, initTime := ⟨59, 59, 23, 7, 31, 12, 99⟩ } 1000)) (fun t =>
      regs t == [0x3B, 0, 0x3B, 0, 0x17, 0, 0x07, 0x1F, 0x0C, 0x63, 0x26, 0xFF, 0x00, 0x80] && !t.dev.line) = true := by
  decide +kernel

/-- V47-2. -/
theorem test_init_refused :
    (∀ c ∈ ([{ Config.atReset with initTime := ⟨0, 0, 12, 1, 29, 2, 23⟩ },
        { Config.atReset with initTime := ⟨0, 0, 24, 1, 1, 1, 0⟩ }, { Config.atReset with initTime := ⟨0, 0, 12, 0, 1, 1, 0⟩ },
        { Config.atReset with slewInterval := 0 }, { Config.atReset with slewInterval := 32768 }] : List Config),
      refuses (exec .init (unattached c 0)) .illFormedConfig = true) ∧
    refuses (exec .init State.reset) .wrongPhase = true := by decide +kernel

/-! Witnesses: for every obligation with hypotheses, concrete values that meet them together; where a statement has
several clauses, values for each clause, at the boundary of its range where it has one. -/

theorem witness_DecodeOfEncodeIsTheInstruction :
    (Instr.datWrNvram0E 0x0E 0x00).wellFormed = true ∧ (Instr.getByteNvram80 0xFF).wellFormed = true := by decide

theorem witness_EncodeOfDecodeIsTheWord :
    decode 0x20FFF = .ok (.datWrNvram0E 0x0F 0xFF) ∧ decode 0x38000 = .ok (.datRdNvram80 0x80) := by decide

/-- One word for each of the three reserved forms, and a word that meets the three conditions of the last clause. -/
theorem witness_ReservedWordsAndOnlyTheyAreRefused :
    (∃ s : State, s.inputs = .word 0xF0000 0 :: [] ∧ opField 0xF0000 = 0xF) ∧
    (∃ s : State, s.inputs = .word 0x00100 0 :: [] ∧ opField 0x00100 ∉ [0x2, 0x3, 0x4, 0x5] ∧ idxField 0x00100 ≠ 0) ∧
    (∃ s : State, s.inputs = .word 0x30C01 0 :: [] ∧ opField 0x30C01 ∉ [0x0, 0x2, 0x4] ∧ dataField 0x30C01 ≠ 0) ∧
    ([0x000FF, 0x2FFFF, 0x5FF00, 0xE0000] : List TWord).all (fun w => decide (opField w ≠ 0xF ∧
      (opField w ∉ [0x2, 0x3, 0x4, 0x5] → idxField w = 0) ∧ (opField w ∉ [0x0, 0x2, 0x4] → dataField w = 0))) = true :=
  ⟨⟨{ State.reset with inputs := [.word 0xF0000 0] }, rfl, by decide⟩,
    ⟨{ State.reset with inputs := [.word 0x00100 0] }, rfl, by decide, by decide⟩,
    ⟨{ State.reset with inputs := [.word 0x30C01 0] }, rfl, by decide, by decide⟩, by decide⟩

theorem witness_StepRunsTheDecodedInstruction :
    ∃ s : State, s.inputs = .word 0x20023 7 :: [] ∧
      decode (resolveIndex s.dev.selectedIndex 0x20023) = .ok (.datWrYear 0x23) :=
  ⟨{ at0 [] 0x09 with inputs := [.word 0x20023 7] }, by decide⟩

/-- The four request forms, the direct accesses at the ends of the range of `addr`. -/
theorem witness_DataPortWordsUseTheSelectedIndex :
    ({ State.reset with inputs := [.word (mkWord 0x2 0x55 0x23) 7] } : State).inputs = .word (mkWord 0x2 0x55 0x23) 7 :: [] ∧
    ({ State.reset with inputs := [.word (mkWord 0x3 0x55 0x00) 7] } : State).inputs = .word (mkWord 0x3 0x55 0x00) 7 :: [] ∧
    (∀ addr ∈ [0, 255],
      ({ State.reset with inputs := [.setCmosByte addr 0x01 7] } : State).inputs = .setCmosByte addr 0x01 7 :: [] ∧
      ({ State.reset with inputs := [.getCmosByte addr 7] } : State).inputs = .getCmosByte addr 7 :: [] ∧ addr < 256) := by
  decide

/-- `addr` 256 in a phase other than Running, in phase Running one tick early, and in phase Running in time; a word. -/
theorem witness_OutOfRangeAddressIsRefused :
    256 ≤ 256 ∧
    ({ suspended Config.atReset with inputs := [.setCmosByte 256 0x01 7] } : State).inputs = .setCmosByte 256 0x01 7 :: [] ∧
    ({ suspended Config.atReset with inputs := [.setCmosByte 256 0x01 7] } : State).dev.phase ≠ .running ∧
    (∀ now ∈ [99, 100],
      ({ State.reset with lastNow := 100, inputs := [.getCmosByte 256 now] } : State).inputs = .getCmosByte 256 now :: [] ∧
      State.reset.dev.phase = .running ∧ (now < 100 ∨ 100 ≤ now)) ∧
    ({ State.reset with inputs := [.word 0x5FF00 7] } : State).inputs = .word 0x5FF00 7 :: [] := by decide

theorem witness_PhaseAdmissionTable :
    admitted State.reset.dev.phase .resume = false ∧ admitted State.reset.dev.phase .teardown = true := by decide

/-- Each clause: an admitted operation that checks the contract, at and before `lastNow`; one that does not; one with a
next state. -/
theorem witness_TimeContract :
    admitted State.reset.dev.phase .idxRd = true ∧ timeChecked .idxRd = true ∧
    admitted State.reset.dev.phase .clkReset = true ∧ timeChecked .clkReset = false ∧
    (∀ now ∈ [99, 100], (atTime { State.reset with lastNow := 100 } now).time < 100 ∨ 100 ≤ now) ∧
    ∃ t, exec .idxRd (atTime { State.reset with lastNow := 100 } 100) = .next t := by
  refine ⟨by decide, by decide, by decide, by decide, by decide, ?_⟩
  obtain ⟨t, h, _⟩ := next_of_gives (o := exec .idxRd (atTime { State.reset with lastNow := 100 } 100))
    (p := fun _ => true) (by decide)
  exact ⟨t, h⟩

/-- A ready state with each of the three events enabled, at the first instant of its range, and one tick earlier. -/
theorem witness_TimerEventsRefusedWhenNotEnabled :
    (atTime State.reset 31).Ready ∧ (atTime State.reset 32).Ready ∧ (atTime State.reset 32767).Ready ∧
    (atTime State.reset 32768).Ready ∧ State.reset.dev.nextPeriodicDeadline = some 32 ∧
    State.reset.dev.nextUpdateDeadline State.reset.config = 32768 := by decide

theorem witness_IllFormedConfigurationIsRefused :
    (unattached Config.atReset 0).dev.phase = .unattached ∧
    (unattached { Config.atReset with slewInterval := 0 } 0).dev.phase = .unattached ∧
    (unattached { Config.atReset with slewInterval := 32768 } 0).dev.phase = .unattached := by decide

/-- A ready state with all flags pending and enabled, and the line high. -/
def pendingAll : State := { atTime (at0 [(0x0C, 0x70), (0x0B, 0x72)]) 50 with lastNow := 50 }

/-! Statements whose hypothesis is that the state is ready. -/

theorem witness_IndexSelectWriteStoresTheIndex : State.reset.Ready ∧ pendingAll.Ready ∧ pendingAll.dev.line = true := by decide
theorem witness_IndexSelectReadReturnsFF : State.reset.Ready ∧ pendingAll.Ready ∧ pendingAll.dev.line = true := by decide
theorem witness_TimeAndAlarmWritesStoreTheByte : State.reset.Ready ∧ pendingAll.Ready ∧ pendingAll.dev.line = true := by decide
theorem witness_ControlCAndDWritesAreIgnored : State.reset.Ready ∧ pendingAll.Ready ∧ pendingAll.dev.line = true := by decide
theorem witness_ControlBWriteMovesTheLineAtOnce : State.reset.Ready ∧ pendingAll.Ready ∧ pendingAll.dev.line = true := by decide
theorem witness_ControlAWriteRestartsThePeriodicTimer : State.reset.Ready ∧ pendingAll.Ready ∧ pendingAll.dev.line = true := by decide
theorem witness_StoredRegisterReadsArePure : State.reset.Ready ∧ pendingAll.Ready ∧ pendingAll.dev.line = true := by decide
theorem witness_ControlDReads80 : State.reset.Ready ∧ pendingAll.Ready ∧ pendingAll.dev.line = true := by decide
theorem witness_GetByteOfStatusClearsNothing : State.reset.Ready ∧ pendingAll.Ready ∧ pendingAll.dev.line = true := by decide
theorem witness_StatusReadReturnsAndClearsTheFlags : State.reset.Ready ∧ pendingAll.Ready ∧ pendingAll.dev.line = true := by decide
theorem witness_ReinjectionResetDropsTheBacklog : State.reset.Ready ∧ pendingAll.Ready ∧ pendingAll.dev.line = true := by decide

theorem witness_RunningOperationsComplete :
    State.reset.Ready ∧ Instr.datRdRegC ≠ .init ∧ Instr.datRdRegC ≠ .resume ∧ isEvent .datRdRegC = false := by decide

/-- The ends of each of the five blocks. -/
theorem witness_NvramWritesStoreTheByte :
    State.reset.Ready ∧
    (∀ i ∈ ([.datWrNvram0E 0x0E 0, .datWrNvram0E 0x0F 0, .datWrNvram10 0x10 0, .datWrNvram10 0x1F 0, .datWrNvram20 0x20 0,
      .datWrNvram20 0x3F 0, .setByteNvram40 0x40 0, .setByteNvram40 0x7F 0, .setByteNvram80 0x80 0,
      .setByteNvram80 0xFF 0] : List Instr), i.wellFormed = true) := by decide

theorem witness_NvramReadsArePure :
    State.reset.Ready ∧
    (∀ i ∈ ([.datRdNvram0E 0x0E, .datRdNvram0E 0x0F, .datRdNvram10 0x10, .datRdNvram10 0x1F, .datRdNvram20 0x20,
      .datRdNvram20 0x3F, .getByteNvram40 0x40, .getByteNvram40 0x7F, .getByteNvram80 0x80,
      .getByteNvram80 0xFF] : List Instr), i.wellFormed = true) := by decide

theorem witness_SecondStatusReadReturnsZero :
    ∃ s t : State, exec .datRdRegC s = .next t ∧ t.dev = t.dev ∧ t.Ready := by
  obtain ⟨t, h, hp⟩ := next_of_gives (o := exec .datRdRegC (at0 [(0x0C, 0x70), (0x0B, 0x72)]))
    (p := fun t => decide t.Ready) (by decide)
  exact ⟨_, t, h, rfl, of_decide_eq_true hp⟩

theorem witness_InitLeavesTheResetTable :
    (unattached Config.atReset 1000).dev.phase = .unattached ∧
    configWellFormed (unattached Config.atReset 1000).config = true := by decide

theorem witness_ResetIsInitAtTickZero :
    (unattached Config.atReset 0).dev.phase = .unattached ∧ (unattached Config.atReset 0).config = Config.atReset ∧
    (unattached Config.atReset 0).time = 0 ∧ (unattached Config.atReset 0).inputs = [] := by decide

/-- Both phases that admit it. -/
theorem witness_TeardownCancelsTheTimers :
    State.reset.dev.phase = .running ∧ (suspended Config.atReset).dev.phase = .suspended := by decide

theorem witness_ClockResetReanchors : (atTime { State.reset with lastNow := 40000 } 500).dev.phase = .running := by decide

/-- Both clauses. -/
theorem witness_SuspendRecordsTheWallInstant :
    State.reset.dev.phase = .running ∧ (suspended Config.atReset).dev.phase ≠ .running := by decide

theorem witness_ResumeCreditsTheSuspendedTime :
    (suspended Config.atReset).dev.phase = .suspended ∧ (suspended Config.atReset).dev.suspendInstant = some 1000000 := by
  decide

/-- Each of the three notifiers has a next state. -/
theorem witness_AdaptersNeverMoveTheClockBack :
    (∃ t, exec .clkReset State.reset = .next t) ∧ (∃ t, exec .suspend State.reset = .next t) ∧
    (∃ t, exec .resume (atTime (suspended Config.atReset) 999000) = .next t) :=
  ⟨⟨_, rfl⟩, ⟨_, rfl⟩, ⟨_, rfl⟩⟩

/-- A resume that leaves less than a second owed, and the exception under Slew. -/
theorem witness_ResumeKeepsDueEventsDue :
    (∃ t, exec .resume (atTime (suspended { Config.atReset with lostTickPolicy := .slew }) 1000000) = .next t) ∧
    (∃ t, exec .resume { atTime (suspended { Config.atReset with lostTickPolicy := .slew }) 1001000 with
      dev := { (suspended Config.atReset).dev with timeBase := ⟨7, 32767⟩ } } = .next t) :=
  ⟨⟨_, rfl⟩, ⟨_, rfl⟩⟩

/-- The clause about later states: the record that a RESUME leaves, at the first instant of each event's range. -/
theorem witness_ResumeKeepsDueEventsDue_later :
    ∃ s t : State, exec .resume s = .next t ∧ s.dev.nextPeriodicDeadline = some 32 ∧ s.dev.reinjectPending = true ∧
      ∀ now ∈ [32, 32768], (atTime t now).dev = t.dev ∧ (atTime t now).config = t.config ∧ (atTime t now).Ready ∧
        32 ≤ (atTime t now).time ∧ (now = 32768 → t.dev.nextUpdateDeadline t.config ≤ (atTime t now).time) := by
  refine ⟨{ suspended Config.atReset with
    time := 1000000, dev := { (suspended Config.atReset).dev with reinjectPending := true } }, _, rfl, rfl, rfl, ?_⟩
  decide

/-- At the deadline and one period later. -/
theorem witness_PeriodicFireCountsElapsedPeriods :
    ∀ now ∈ [32, 64], (atTime State.reset now).Ready ∧ (atTime State.reset now).dev.nextPeriodicDeadline = some 32 ∧
      32 ≤ (atTime State.reset now).time ∧ (atTime State.reset now).dev.periodicPeriod ≠ 0 := by decide

/-- At the first instant of the range. -/
theorem witness_UpdateFireAdvancesTheClock :
    (atTime State.reset 32768).Ready ∧
    (atTime State.reset 32768).dev.nextUpdateDeadline State.reset.config ≤ (atTime State.reset 32768).time := by decide

/-- The reset state with a reinjection pending and PF set or clear. -/
def reinjecting (status : Byte) : State :=
  { at0 [(0x0C, status), (0x0B, 0x42)] with
    dev := { (at0 [(0x0C, status), (0x0B, 0x42)]).dev with reinjectPending := true, coalescedCount := 1 } }

theorem witness_ReinjectionFireRedeliversOneTick :
    ∀ c ∈ ([0x00, 0x40] : List Byte), (reinjecting c).Ready ∧ (reinjecting c).dev.reinjectPending = true := by decide

theorem witness_EnabledUpdateOwesASecond :
    State.reset.dev.nextUpdateDeadline Config.atReset ≤ 32768 ∧
    ({ State.reset.dev with timeBase := ⟨7, 32768⟩ } : Device).nextUpdateDeadline Config.atReset ≤ 7 := by decide

/-- The configuration of log 2 under Slew. -/
def slew : Config := { Config.atReset with lostTickPolicy := .slew }

/-- The least owed time; the greatest within tolerance; the least beyond it, under each policy. -/
theorem witness_SecondsAppliedHaveElapsed :
    32768 ≤ 32768 ∧ (32768 ≤ 65536 ∧ 65536 - 32768 ≤ 32768) ∧ (32768 ≤ 65537 ∧ 32768 < 65537 - 32768) ∧
    Config.atReset.lostTickPolicy = .discard ∧ slew.lostTickPolicy = .slew := by decide

/-- One tick beyond the tolerance, under each policy. -/
theorem witness_LateFireLeavesABoundedDebt :
    ∀ c ∈ [Config.atReset, slew], ∃ t, exec .evUpdate (atTime { State.reset with config := c } 65537) = .next t ∧
      2 * 32768 < (atTime { State.reset with config := c } 65537).dev.owed 65537 := by
  intro c hc
  have h : ∀ c ∈ [Config.atReset, slew],
      gives (exec .evUpdate (atTime { State.reset with config := c } 65537)) (fun _ => true) = true := by decide +kernel
  have late : 2 * 32768 < State.reset.dev.owed 65537 := by decide
  obtain ⟨t, ht, _⟩ := next_of_gives (h c hc)
  exact ⟨t, ht, late⟩

/-- On time, and at the last instant of the tolerance. -/
theorem witness_LateFireWithinToleranceKeepsTheGrid :
    ∀ now ∈ [32768, 65535], (∃ t, exec .evUpdate (atTime State.reset now) = .next t) ∧
      State.reset.dev.timeBase.off < 32768 ∧ State.reset.dev.timeBase.ref ≤ now ∧
      now < State.reset.dev.nextUpdateDeadline State.reset.config + 32768 := by
  intro now hn
  have h : ∀ now ∈ [32768, 65535], gives (exec .evUpdate (atTime State.reset now)) (fun _ => true) = true ∧
      State.reset.dev.timeBase.off < 32768 ∧ State.reset.dev.timeBase.ref ≤ now ∧
      now < State.reset.dev.nextUpdateDeadline State.reset.config + 32768 := by decide +kernel
  obtain ⟨hg, rest⟩ := h now hn
  obtain ⟨t, ht, _⟩ := next_of_gives hg
  exact ⟨⟨t, ht⟩, rest⟩

/-- The debt of 95_test_vectors.md P4b after step 3; for one fire the condition on the fires before it holds. -/
theorem witness_SlewCatchUpConverges :
    slew.lostTickPolicy = .slew ∧ 0 < slew.slewInterval ∧ slew.slewInterval < 32768 ∧
    ({ State.reset.dev with timeBase := ⟨229476, 163940⟩ } : Device).timeBase.off / 32768 ≤ slew.slewMaxBacklog ∧
    (∀ j < 1, 32768 ≤ (onTimeFires slew { State.reset.dev with timeBase := ⟨229476, 163940⟩ } j).timeBase.off) := by
  decide +kernel

/-- A fire that matches the alarm, one that does not, and one with AF already set. -/
theorem witness_AlarmFlagFollowsTheComparison :
    ∀ w ∈ ([[(0x01, 0xC0), (0x03, 0xC0), (0x05, 0xFF)], [(0x01, 0xBF)], [(0x0C, 0x20)]] : List (List (Byte × Byte))),
      ∃ t, exec .evUpdate (atTime (at0 w) 32768) = .next t := by
  intro w hw
  have h : ∀ w ∈ ([[(0x01, 0xC0), (0x03, 0xC0), (0x05, 0xFF)], [(0x01, 0xBF)], [(0x0C, 0x20)]] :
      List (List (Byte × Byte))), gives (exec .evUpdate (atTime (at0 w) 32768)) (fun _ => true) = true := by decide +kernel
  obtain ⟨t, ht, _⟩ := next_of_gives (h w hw)
  exact ⟨t, ht⟩

/-- V60-3: both events due at tick 32768. -/
theorem witness_UpdateAndPeriodicFiresCommute :
    (atTime (at0 [(0x0B, 0x52)]) 32768).Inv ∧ (atTime (at0 [(0x0B, 0x52)]) 32768).Ready ∧
    (atTime (at0 [(0x0B, 0x52)]) 32768).dev.nextPeriodicDeadline = some 32 ∧ 32 ≤ 32768 ∧
    (at0 [(0x0B, 0x52)]).dev.nextUpdateDeadline Config.atReset ≤ 32768 := by decide

/-- The second clause: PF set, with PIE set and the line high, and with PIE clear and the line low. -/
theorem witness_OnePeriodicEdgeOutstanding_regB :
    (at0 [(0x0C, 0x40), (0x0B, 0x42)]).Ready ∧ (at0 [(0x0C, 0x40), (0x0B, 0x42)]).dev.pf = true ∧
    (at0 [(0x0C, 0x40), (0x0B, 0x42)]).dev.pie = true ∧ (at0 [(0x0C, 0x40), (0x0B, 0x02)]).Ready ∧
    (at0 [(0x0C, 0x40), (0x0B, 0x02)]).dev.pf = true ∧ (at0 [(0x0C, 0x40), (0x0B, 0x02)]).dev.line = false ∧
    (0x42 : Byte).getLsbD 6 = true := by decide

/-- The first clause: PF pending and enabled, and each of the three timer events a step. -/
theorem witness_OnePeriodicEdgeOutstanding :
    ∀ i ∈ ([.evPeriodic, .evReinject, .evUpdate] : List Instr),
      i.wellFormed = true ∧ i ≠ .init ∧ i ≠ .datRdRegC ∧ (∀ v, i ≠ .datWrRegB v ∧ i ≠ .setByteRegB v) ∧
      (∃ t, exec i (atTime (reinjecting 0x40) 32768) = .next t) ∧ (reinjecting 0x40).dev.pf = true ∧
      (reinjecting 0x40).dev.pie = true := by
  intro i hi
  have h : ∀ i ∈ ([.evPeriodic, .evReinject, .evUpdate] : List Instr),
      gives (exec i (atTime (reinjecting 0x40) 32768)) (fun _ => true) = true := by decide +kernel
  obtain ⟨t, ht, _⟩ := next_of_gives (h i hi)
  simp only [List.mem_cons, List.not_mem_nil, or_false] at hi
  rcases hi with rfl | rfl | rfl <;>
    exact ⟨rfl, by simp, by simp, by simp, ⟨t, ht⟩, by decide, by decide⟩

/-- The reset state with an acknowledgment presented, all flags pending and enabled, and the assert recorded. -/
def acknowledging : State :=
  { at0 [(0x0C, 0x70), (0x0B, 0x72)] 0x0C with sink := [.assert], inputs := [.word 0x30C00 5] }

theorem witness_ConfigurationNeverChanges : ∃ t, step acknowledging = .next t := by
  obtain ⟨t, h, _⟩ := next_of_gives (o := step acknowledging) (p := fun _ => true) (by decide)
  exact ⟨t, h⟩

theorem witness_StepKeepsTheInvariant : acknowledging.Inv ∧ ∃ t, step acknowledging = .next t :=
  ⟨by decide, witness_ConfigurationNeverChanges⟩

theorem witness_StepKeepsTheSinkRecord : acknowledging.SinkInv ∧ ∃ t, step acknowledging = .next t :=
  ⟨fun _ => by decide, witness_ConfigurationNeverChanges⟩

/-- GET_BYTE at 0x0C with all flags pending. -/
theorem witness_FlagsAreClearedOnlyByTheStatusRead :
    ∃ s t : State, Instr.getByteRegC.wellFormed = true ∧ Instr.getByteRegC ≠ .init ∧ Instr.getByteRegC ≠ .datRdRegC ∧
      exec .getByteRegC s = .next t ∧ s.dev.pf = true ∧ s.dev.af = true ∧ s.dev.uf = true := by
  obtain ⟨t, h, _⟩ := next_of_gives (o := exec .getByteRegC (at0 [(0x0C, 0x70)])) (p := fun _ => true) (by decide)
  exact ⟨_, t, rfl, by decide, by decide, h, by decide, by decide, by decide⟩

theorem witness_OnlyTheSelectWriteMovesTheIndex :
    (∀ v, Instr.datWrRegB 0x42 ≠ .idxWr v) ∧ Instr.datWrRegB 0x42 ≠ .init ∧
    ∃ t, exec (.datWrRegB 0x42) State.reset = .next t := by
  obtain ⟨t, h, _⟩ := next_of_gives (o := exec (.datWrRegB 0x42) State.reset) (p := fun _ => true) (by decide)
  exact ⟨fun _ => by simp, by decide, t, h⟩

/-- Both clauses. -/
theorem witness_BacklogWriters :
    (∃ t, exec .getByteRegC State.reset = .next t) ∧
    Instr.getByteRegC.wellFormed = true ∧
    Instr.getByteRegC ∉ ([.init, .datRdRegC, .evPeriodic, .evReinject, .rstReinj] : List Instr) ∧
    Instr.getByteRegC ≠ .teardown ∧ (∃ t, exec .evPeriodic (atTime State.reset 32) = .next t) := by
  obtain ⟨t, h, _⟩ := next_of_gives (o := exec .getByteRegC State.reset) (p := fun _ => true) (by decide)
  obtain ⟨u, g, _⟩ := next_of_gives (o := exec .evPeriodic (atTime State.reset 32)) (p := fun _ => true) (by decide)
  exact ⟨⟨t, h⟩, by decide, by decide, by decide, u, g⟩

/-- A write of the seconds alarm. -/
theorem witness_TimeRegistersMoveOnlyByFireOrWrite :
    ∃ s t : State, (Instr.setByteSecondsAlarm 0x59).wellFormed = true ∧ Instr.setByteSecondsAlarm 0x59 ≠ .init ∧ Instr.setByteSecondsAlarm 0x59 ≠ .evUpdate ∧
      (∀ v, Instr.setByteSecondsAlarm 0x59 ∉ ([.datWrSeconds v, .datWrMinutes v, .datWrHours v, .datWrDayOfWeek v,
        .datWrDayOfMonth v, .datWrMonth v, .datWrYear v, .setByteSeconds v, .setByteMinutes v, .setByteHours v,
        .setByteDayOfWeek v, .setByteDayOfMonth v, .setByteMonth v, .setByteYear v] : List Instr)) ∧
      exec (.setByteSecondsAlarm 0x59) s = .next t := by
  obtain ⟨t, h, _⟩ := next_of_gives (o := exec (.setByteSecondsAlarm 0x59) State.reset) (p := fun _ => true) (by decide)
  exact ⟨_, t, by decide, by decide, by decide, fun _ => by simp, h⟩

/-- Five seconds late, from a valid time. -/
theorem witness_UpdateFireMovesGuestTimeForward :
    (∃ t, exec .evUpdate (atTime State.reset 196608) = .next t) ∧
    validTime State.reset.config.baseYear State.reset.dev.decodeTime = true := by
  obtain ⟨t, h, _⟩ := next_of_gives (o := exec .evUpdate (atTime State.reset 196608)) (p := fun _ => true)
    (by decide +kernel)
  exact ⟨⟨t, h⟩, by decide⟩

/-- The neighbouring index, and the first and the last index of the range. -/
theorem witness_NvramChangesOnlyByItsWrite :
    ∀ j ∈ ([0x0E, 0xFF] : List Byte), 0x0E ≤ j ∧ (Instr.setByteNvram40 0x40 0x11).wellFormed = true ∧
      Instr.setByteNvram40 0x40 0x11 ≠ .init ∧
      (∀ v, Instr.setByteNvram40 0x40 0x11 ∉ ([.datWrNvram0E j v, .datWrNvram10 j v, .datWrNvram20 j v,
        .datWrNvram40 j v, .datWrNvram80 j v, .setByteNvram0E j v, .setByteNvram10 j v, .setByteNvram20 j v,
        .setByteNvram40 j v, .setByteNvram80 j v] : List Instr)) ∧
      ∃ s t : State, exec (.setByteNvram40 0x40 0x11) s = .next t := by
  obtain ⟨t, h, _⟩ := next_of_gives (o := exec (.setByteNvram40 0x40 0x11) State.reset) (p := fun _ => true) (by decide)
  intro j hj
  have hne : (0x40 : Byte) ≠ j := by revert hj; revert j; decide
  exact ⟨by revert hj; revert j; decide, by decide, by decide, fun v => by simp; exact fun hh => absurd hh hne, _, t, h⟩

/-- The last second of a year and a leap day. -/
theorem witness_CodecRoundTrip :
    validTime 2000 ⟨59, 59, 23, 7, 31, 12, 99⟩ = true ∧ validTime 2000 ⟨0, 0, 0, 1, 29, 2, 24⟩ = true := by decide

theorem witness_TickKeepsTimesValid :
    validTime 2000 ⟨59, 59, 23, 7, 31, 12, 99⟩ = true ∧ validTime 2000 ⟨59, 59, 23, 4, 28, 2, 24⟩ = true := by decide

/-- The last second of the last year, the last of a leap February, one that carries nothing, and midnight after the
last second of February 2023 (property T7). The counts are by hand: two years of 365 days, and January. -/
theorem witness_TickIsOneSecond :
    validTime 2000 ⟨59, 59, 23, 7, 31, 12, 99⟩ = true ∧ validTime 2000 ⟨59, 59, 23, 5, 29, 2, 24⟩ = true ∧
    validTime 2000 ⟨0, 0, 0, 1, 1, 1, 0⟩ = true ∧ validTime 2000 ⟨59, 59, 23, 3, 28, 2, 23⟩ = true ∧
    secondsSinceBase 2000 ⟨0, 0, 0, 1, 1, 1, 0⟩ = 0 ∧ secondsSinceBase 2001 ⟨5, 1, 1, 1, 1, 2, 2⟩ = (2 * 365 + 31) * 86400 + 3665 := by
  decide

/-- The ends of each range: 99 and 0, the hours about noon, and both modes of a device record. -/
theorem witness_CodecBytes :
    99 ≤ 99 ∧ 23 < 24 ∧ (true, true) = (((clock 0x06 []).reg 0x0B).getLsbD 2, ((clock 0x06 []).reg 0x0B).getLsbD 1) ∧
    (false, false) = (((clock 0x00 []).reg 0x0B).getLsbD 2, ((clock 0x00 []).reg 0x0B).getLsbD 1) := by decide

end Sys2Proof.Tests
end

namespace Sys2Proof.Machine

open Sys2Proof

/-! The configuration along a step, 00_scope.md R10. `exec_next` speaks of every instruction but INIT, so INIT has its
own inversion lemma. -/

/-- INIT has a next state exactly from phase Unattached with a well-formed configuration (60_exceptions.md R301, R307). -/
theorem execInit_next (s t : State) :
    execInit s = .next t ↔ s.dev.phase = .unattached ∧ configWellFormed s.config = true ∧
      { s with dev := initDevice s.config s.time, lastNow := s.time, ret := none, edge := none, sink := [] } = t := by
  unfold execInit
  by_cases hp : s.dev.phase = .unattached
  · by_cases hc : configWellFormed s.config = true <;> simp [hp, hc]
  · simp [hp]

/-- No instruction writes the configuration: INIT replaces the device record and the outputs, and every other
instruction is the completion of a change of the device record. -/
theorem exec_config (i : Instr) (s t : State) (h : exec i s = .next t) : t.config = s.config := by
  by_cases hi : i = .init
  · subst hi
    obtain ⟨_, _, rfl⟩ := (execInit_next s t).1 h
    rfl
  · obtain ⟨_, ⟨ret, last, ht, _⟩, _, _⟩ := exec_next i s t hi h
    rw [ht, complete_config]

/-- Settles O53: a step waits, or runs one instruction in the state that has accepted its request. -/
theorem configurationNeverChanges : Obligations.ConfigurationNeverChanges := by
  intro s t h
  obtain ⟨_, rfl⟩ | ⟨r, rest, w, i, _, _, _, hx⟩ := (step_next s t).1 h
  · rfl
  · calc t.config = (s.accept r rest).config := exec_config i _ t hx
      _ = s.config := State.accept_config s r rest

end Sys2Proof.Machine

namespace Sys2Proof.Machine

open Sys2Proof

/-! The output line, 10_state.md R39. -/

theorem flagMask_ne_zero (x : Byte) :
    ((x &&& flagMask) != 0) = (x.getLsbD 6 || x.getLsbD 5 || x.getLsbD 4) := by revert x; decide

theorem line_eq_or (d : Device) : d.line = (d.pf && d.pie || d.af && d.aie || d.uf && d.uie) := by
  rw [Device.line, flagMask_ne_zero]
  simp only [BitVec.getLsbD_and, Device.pf, Device.pie, Device.af, Device.aie, Device.uf, Device.uie]

theorem statusByte_bit7 (d : Device) : d.statusByte.getLsbD 7 = d.line := by
  rw [Device.statusByte, BitVec.getLsbD_or, BitVec.getLsbD_and]
  cases d.line <;> simp

/-- Settles O57: the mask keeps the three flag bits, and IRQF is the line by the definition of the status byte. -/
theorem lineIsTheOrOfEnabledFlags : Obligations.LineIsTheOrOfEnabledFlags :=
  fun d => ⟨line_eq_or d, statusByte_bit7 d⟩

/-! The fields beside the register file after each shared operation: one equation per operation. -/

theorem writeReg_fields (i v : Byte) (now : Nat) (d : Device) :
    d.writeReg i v now =
      { d with
        regs := (d.writeReg i v now).regs
        nextPeriodicDeadline :=
          if i = regA then armPeriodic (rateTable (rateSelect v)) now else d.nextPeriodicDeadline } := by
  rcases writeReg_cases i v now d with ⟨ha, _, _, e⟩ | ⟨ha, e⟩ | ⟨hcd, e⟩
  · rw [e, if_neg ha]; rfl
  · rw [e, if_pos ha]; rfl
  · have ha : i ≠ regA := by rcases hcd with rfl | rfl <;> decide
    rw [e, if_neg ha]

theorem readAndClearC_fields (d : Device) :
    d.readAndClearC =
      { d with
        regs := d.readAndClearC.regs
        coalescedCount := d.coalescedCount - 1
        reinjectPending := d.reinjectPending || decide (0 < d.coalescedCount) } := by
  unfold Device.readAndClearC
  rcases acknowledge_cases (d.setReg regC 0x00) with ⟨h, e⟩ | ⟨h, e⟩ <;> rw [e] <;>
    rw [Device.setReg_coalescedCount] at h
  · simp only [Device.setReg, h, decide_true, Bool.or_true]
  · simp only [Device.setReg, h, Nat.lt_irrefl, decide_false, Bool.or_false]

theorem firePeriodic_fields (c : Config) (now dl : Nat) (d : Device) :
    d.firePeriodic c now dl =
      { d with
        regs := (d.firePeriodic c now dl).regs
        nextPeriodicDeadline := some (dl + elapsedPeriods now dl d.periodicPeriod * d.periodicPeriod)
        coalescedCount := (d.firePeriodic c now dl).coalescedCount } := by
  rw [firePeriodic_eq]
  cases d.pf && d.pie <;> rfl

theorem fireReinject_frame (c : Config) (d : Device) :
    d.fireReinject c =
      { d with
        regs := (d.fireReinject c).regs
        coalescedCount := (d.fireReinject c).coalescedCount
        reinjectPending := false } := by
  rcases fireReinject_fields c d with ⟨_, e⟩ | ⟨_, e⟩
  · rw [e]
  · rw [e]; rfl

/-- Settles O49: beside IDX_WR and INIT every effect is an equation that leaves `selectedIndex`. -/
theorem onlyTheSelectWriteMovesTheIndex : Obligations.OnlyTheSelectWriteMovesTheIndex := by
  intro i s t hsel hinit h
  obtain ⟨he, _⟩ := exec_next i s t hinit h
  cases he with
  | write idx v word dev => rw [dev, writeReg_fields]
  | statusRead word dev => rw [dev, readAndClearC_fields]
  | select v instr dev => exact absurd instr (hsel v)
  | periodic instr dl armed due dev => rw [dev, firePeriodic_fields]
  | update instr due dev => rw [dev, fireUpdate_fields]
  | reinject instr pending dev => rw [dev, fireReinject_frame]
  | pure _ dev | dropBacklog _ dev | reanchor _ dev | suspend _ dev | resume _ _ dev | teardown _ _ dev => rw [dev]

/-! The registers an effect leaves as they were. -/

/-- The registers of class TIME, 30_encoding.md R83. -/
abbrev timeRegs : List Byte :=
  [regSeconds, regMinutes, regHours, regDayOfWeek, regDayOfMonth, regMonth, regYear]

theorem nvram_not_mem_timeRegs (j : Byte) (hj : 0x0E ≤ j) : j ∉ timeRegs := by revert j; decide

theorem timeRegs_ne_regC (j : Byte) (hj : j ∈ timeRegs) : j ≠ regC := by rintro rfl; revert hj; decide

theorem encodeTime_reg_other (d : Device) (c : CalTime) (j : Byte) (hj : j ∉ timeRegs) :
    (d.encodeTime c).reg j = d.reg j := by
  simp only [timeRegs, List.mem_cons, List.not_mem_nil, or_false, not_or] at hj
  obtain ⟨hs, hm, hh, hw, hd, hmo, hy⟩ := hj
  simp only [encodeTime_reg, hs, hm, hh, hw, hd, hmo, hy, if_false]

/-- A register is written by a write word of its own index, moved by the update fire if it is a time register, is the
status register, or reads as before. -/
theorem Effect.reg_cases {s : State} {i : Instr} {d : Device} (he : Effect s i d) (j : Byte) :
    (∃ v, (encode i = mkWord 0x2 j v ∨ encode i = mkWord 0x4 j v) ∧ d = s.dev.writeReg j v s.time) ∨
    (i = .evUpdate ∧ j ∈ timeRegs) ∨ j = regC ∨ d.reg j = s.dev.reg j := by
  by_cases hc : j = regC
  · exact .inr (.inr (.inl hc))
  cases he with
  | write idx v word dev =>
    by_cases hj : j = idx
    · subst hj
      exact .inl ⟨v, word, dev⟩
    · rw [dev, writeReg_other _ _ _ _ _ hj]
      exact .inr (.inr (.inr rfl))
  | update instr due dev =>
    by_cases hj : j ∈ timeRegs
    · exact .inr (.inl ⟨instr, hj⟩)
    · rw [dev, fireUpdate_reg, if_neg (Ne.symm hc), encodeTime_reg_other _ _ _ hj]
      exact .inr (.inr (.inr rfl))
  | statusRead word dev =>
    rw [dev, readAndClearC_reg, if_neg (Ne.symm hc)]
    exact .inr (.inr (.inr rfl))
  | periodic instr dl armed due dev =>
    rw [dev, firePeriodic_reg, if_neg (Ne.symm hc)]
    exact .inr (.inr (.inr rfl))
  | reinject instr pending dev =>
    rw [dev, fireReinject_reg, if_neg (Ne.symm hc)]
    exact .inr (.inr (.inr rfl))
  | pure _ dev | select _ _ dev | dropBacklog _ dev | reanchor _ dev | suspend _ dev | resume _ _ dev
  | teardown _ _ dev =>
    rw [dev]
    exact .inr (.inr (.inr rfl))

/-! The instruction of a write word, 30_encoding.md R84: the index picks the row. -/

theorem inBlock_iff (lo hi idx : Byte) :
    inBlock lo hi idx = true ↔ lo.toNat ≤ idx.toNat ∧ idx.toNat ≤ hi.toNat := by
  simp [inBlock, BitVec.le_def]

theorem decodeDatWr_of_nvram (idx v : Byte) (h : 14 ≤ idx.toNat) :
    decodeDatWr idx v =
      if idx.toNat < 0x10 then .datWrNvram0E idx v else if idx.toNat < 0x20 then .datWrNvram10 idx v
      else if idx.toNat < 0x40 then .datWrNvram20 idx v else if idx.toNat < 0x80 then .datWrNvram40 idx v
      else .datWrNvram80 idx v := by
  obtain ⟨k, hk⟩ := Nat.exists_eq_add_of_le' h
  rw [decodeDatWr, hk]; rfl

theorem decodeSetByte_of_nvram (idx v : Byte) (h : 14 ≤ idx.toNat) :
    decodeSetByte idx v =
      if idx.toNat < 0x10 then .setByteNvram0E idx v else if idx.toNat < 0x20 then .setByteNvram10 idx v
      else if idx.toNat < 0x40 then .setByteNvram20 idx v else if idx.toNat < 0x80 then .setByteNvram40 idx v
      else .setByteNvram80 idx v := by
  obtain ⟨k, hk⟩ := Nat.exists_eq_add_of_le' h
  rw [decodeSetByte, hk]; rfl

/-- A well-formed instruction of operation code 2 is the DAT_WR row of its word's index. -/
theorem eq_decodeDatWr (i : Instr) (hwf : i.wellFormed = true) (hop : opField (encode i) = 0x2) :
    i = decodeDatWr (idxField (encode i)) (dataField (encode i)) := by
  cases i <;> simp [encode] at hop <;> simp only [encode, idxField_mkWord, dataField_mkWord]
  case datWrNvram0E idx v | datWrNvram10 idx v | datWrNvram20 idx v | datWrNvram40 idx v | datWrNvram80 idx v =>
    obtain ⟨hlo, hhi⟩ := (inBlock_iff _ _ _).1 hwf
    simp only [BitVec.reduceToNat] at hlo hhi
    rw [decodeDatWr_of_nvram idx v (by omega)]
    grind
  all_goals rfl

/-- A well-formed instruction of operation code 4 is the SET_BYTE row of its word's index. -/
theorem eq_decodeSetByte (i : Instr) (hwf : i.wellFormed = true) (hop : opField (encode i) = 0x4) :
    i = decodeSetByte (idxField (encode i)) (dataField (encode i)) := by
  cases i <;> simp [encode] at hop <;> simp only [encode, idxField_mkWord, dataField_mkWord]
  case setByteNvram0E idx v | setByteNvram10 idx v | setByteNvram20 idx v | setByteNvram40 idx v | setByteNvram80 idx v =>
    obtain ⟨hlo, hhi⟩ := (inBlock_iff _ _ _).1 hwf
    simp only [BitVec.reduceToNat] at hlo hhi
    rw [decodeSetByte_of_nvram idx v (by omega)]
    grind
  all_goals rfl

/-- A well-formed instruction that is no write row of index `j` has no write word of that index. -/
theorem encode_ne_write (i : Instr) (j : Byte) (hwf : i.wellFormed = true)
    (h : ∀ v, i ≠ decodeDatWr j v ∧ i ≠ decodeSetByte j v) (v : Byte) :
    ¬ (encode i = mkWord 0x2 j v ∨ encode i = mkWord 0x4 j v) := by
  rintro (he | he)
  · exact (h v).1 (by simpa [he] using eq_decodeDatWr i hwf (by simp [he]))
  · exact (h v).2 (by simpa [he] using eq_decodeSetByte i hwf (by simp [he]))

/-- Settles O51: the time registers are none of the status register, and outside the update fire each of them moves
only under the write row of its own index. -/
theorem timeRegistersMoveOnlyByFireOrWrite : Obligations.TimeRegistersMoveOnlyByFireOrWrite := by
  intro i s t hwf hinit hupd hrow h j hmem
  obtain ⟨he, _⟩ := exec_next i s t hinit h
  have hwrite : ∀ v, i ≠ decodeDatWr j v ∧ i ≠ decodeSetByte j v := by
    intro v
    have hv := hrow v
    simp only [List.mem_cons, List.not_mem_nil, or_false] at hmem
    rcases hmem with rfl | rfl | rfl | rfl | rfl | rfl | rfl <;>
      exact ⟨fun hi => hv (by simp [hi, decodeDatWr]), fun hi => hv (by simp [hi, decodeSetByte])⟩
  obtain ⟨v, hword, _⟩ | ⟨hi, _⟩ | hj | hsame := he.reg_cases j
  · exact absurd hword (encode_ne_write i j hwf hwrite v)
  · exact absurd hi hupd
  · exact absurd hj (timeRegs_ne_regC j hmem)
  · exact hsame

/-- Settles O54: an NVRAM register is neither the status register nor a time register, so it moves only under the write
row of its own index. -/
theorem nvramChangesOnlyByItsWrite : Obligations.NvramChangesOnlyByItsWrite := by
  intro i s t j hj hwf hinit hrow h
  obtain ⟨he, _⟩ := exec_next i s t hinit h
  have hlo : 14 ≤ j.toNat := BitVec.le_def.1 hj
  have hwrite : ∀ v, i ≠ decodeDatWr j v ∧ i ≠ decodeSetByte j v := by
    intro v
    have hv := hrow v
    rw [decodeDatWr_of_nvram j v hlo, decodeSetByte_of_nvram j v hlo]
    constructor <;> rintro rfl <;> revert hv <;> split_ifs <;> simp
  obtain ⟨v, hword, _⟩ | ⟨_, htime⟩ | rfl | hsame := he.reg_cases j
  · exact absurd hword (encode_ne_write i j hwf hwrite v)
  · exact absurd htime (nvram_not_mem_timeRegs j hj)
  · exact absurd hj (by decide)
  · exact hsame

/-! The codec on valid times, 41_codec.md R150 to R162. -/

theorem fromBCD_eq (b : Byte) : fromBCD b = 10 * (b.toNat / 16) + b.toNat % 16 := by
  rw [fromBCD, Nat.shiftRight_eq_div_pow, show (0x0F : Nat) = 2 ^ 4 - 1 from rfl, Nat.and_two_pow_sub_one_eq_mod]
  omega

theorem toBCD_toNat (v : Nat) : (toBCD v).toNat = 16 * (v / 10 % 16) + v % 10 := by
  have hor : (v / 10 % 16) <<< 4 ||| v % 10 = 16 * (v / 10 % 16) + v % 10 := by
    rw [← Nat.shiftLeft_add_eq_or_of_lt (by omega), Nat.shiftLeft_eq]
    omega
  rw [toBCD, hor, BitVec.toNat_ofNat]
  omega

theorem decField_encField (v : Nat) (dm : Bool) (hv : v ≤ 99) : decField (encField v dm) dm = v := by
  cases dm
  · have h : fromBCD (toBCD v) = v := by
      rw [fromBCD_eq, toBCD_toNat]
      omega
    simpa [decField, encField] using h
  · have h : v % 256 = v := by omega
    simpa [decField, encField] using h

theorem decodeHour_encodeHour (h : Nat) (dm h24 : Bool) (hh : h ≤ 23) :
    decodeHour (encodeHour h dm h24) dm h24 = h := by
  have table : ∀ h < 24, ∀ dm h24 : Bool, decodeHour (encodeHour h dm h24) dm h24 = h := by decide
  exact table h (by omega) dm h24

theorem daysInMonth_bounds (mon y : Nat) : 1 ≤ daysInMonth mon y ∧ daysInMonth mon y ≤ 31 := by
  unfold daysInMonth
  split_ifs <;> simp

theorem validTime_iff (baseYear : Nat) (c : CalTime) :
    validTime baseYear c = true ↔
      c.sec ≤ 59 ∧ c.min ≤ 59 ∧ c.hour ≤ 23 ∧ (1 ≤ c.dow ∧ c.dow ≤ 7) ∧ (1 ≤ c.mon ∧ c.mon ≤ 12) ∧
      (1 ≤ c.mday ∧ c.mday ≤ daysInMonth c.mon (baseYear + c.year)) ∧ c.year ≤ 99 := by
  simp only [validTime, Bool.and_eq_true, decide_eq_true_eq, and_assoc]

/-- 41_codec.md R162: every field of a valid time fits two digits, and the modes stand outside the time registers. -/
theorem decodeTime_encodeTime (baseYear : Nat) (c : CalTime) (d : Device) (hc : validTime baseYear c = true) :
    (d.encodeTime c).decodeTime = c := by
  obtain ⟨hsec, hmin, hhour, ⟨_, hdow⟩, ⟨_, hmon⟩, ⟨_, hmday⟩, hyear⟩ := (validTime_iff baseYear c).1 hc
  have hdays := (daysInMonth_bounds c.mon (baseYear + c.year)).2
  have hdm : (d.encodeTime c).dm = d.dm := by rw [Device.dm, encodeTime_reg_other _ _ _ (by decide)]; rfl
  have hh24 : (d.encodeTime c).h24 = d.h24 := by rw [Device.h24, encodeTime_reg_other _ _ _ (by decide)]; rfl
  simp only [Device.decodeTime, hdm, hh24, encodeTime_reg, regSeconds, regMinutes, regHours, regDayOfWeek,
    regDayOfMonth, regMonth, regYear, BitVec.reduceEq, if_true, if_false]
  rw [decField_encField c.sec _ (by omega), decField_encField c.min _ (by omega), decodeHour_encodeHour _ _ _ hhour,
    decField_encField c.dow _ (by omega), decField_encField c.mday _ (by omega), decField_encField c.mon _ (by omega),
    decField_encField c.year _ (by omega)]

/-- Each line of the cascade of 41_codec.md R160 keeps R150's bounds; a new month has a first day. -/
theorem validTime_tick1 (baseYear : Nat) (c : CalTime) (hc : validTime baseYear c = true) :
    validTime baseYear (tick1 baseYear c) = true := by
  rw [validTime_iff] at hc ⊢
  unfold tick1
  have hpos := fun mon y => (daysInMonth_bounds mon y).1
  split_ifs <;> simp only [hpos, and_true] <;> omega

theorem validTime_addSeconds (baseYear : Nat) (c : CalTime) (n : Nat) (hc : validTime baseYear c = true) :
    validTime baseYear (addSeconds baseYear c n) = true := by
  induction n generalizing c with
  | zero => exact hc
  | succ n ih => exact ih (tick1 baseYear c) (validTime_tick1 baseYear c hc)

/-- The time registers and the modes stand outside the status register. -/
theorem decodeTime_congr (d e : Device) (h : ∀ j, j ≠ regC → e.reg j = d.reg j) : e.decodeTime = d.decodeTime := by
  simp only [Device.decodeTime, Device.dm, Device.h24, h _ (show regSeconds ≠ regC by decide),
    h _ (show regMinutes ≠ regC by decide), h _ (show regHours ≠ regC by decide),
    h _ (show regDayOfWeek ≠ regC by decide), h _ (show regDayOfMonth ≠ regC by decide),
    h _ (show regMonth ≠ regC by decide), h _ (show regYear ≠ regC by decide), h _ (show regB ≠ regC by decide)]

theorem fireUpdate_decodeTime (c : Config) (now : Nat) (d : Device) (hd : validTime c.baseYear d.decodeTime = true) :
    (d.fireUpdate c now).decodeTime =
      addSeconds c.baseYear d.decodeTime (secondsToApply c (d.owed now)) := by
  have hvalid := validTime_addSeconds c.baseYear d.decodeTime (secondsToApply c (d.owed now)) hd
  calc (d.fireUpdate c now).decodeTime
      = (d.encodeTime (addSeconds c.baseYear d.decodeTime (secondsToApply c (d.owed now)))).decodeTime :=
        decodeTime_congr _ _ (fun j hj => by rw [fireUpdate_reg, if_neg hj.symm])
    _ = _ := decodeTime_encodeTime c.baseYear _ d hvalid

/-! The lost-tick choice, 45_lost_tick.md R241, against the time owed. -/

theorem oneSec_le_owed (c : Config) (d : Device) (now : Nat) (h : d.nextUpdateDeadline c ≤ now) :
    oneSec ≤ d.owed now := by
  unfold Device.nextUpdateDeadline at h
  unfold Device.owed
  split_ifs at h <;> omega

theorem secondsToApply_bounds (c : Config) (o : Nat) (ho : oneSec ≤ o) :
    1 ≤ secondsToApply c o ∧ secondsToApply c o * oneSec ≤ o := by
  unfold secondsToApply
  simp only [oneSec] at ho ⊢
  split
  · omega
  · split <;> omega

/-- Settles O52: at least one second is owed when the fire is due, the lost-tick choice applies no more than is owed, and
the codec gives a valid time back. -/
theorem updateFireMovesGuestTimeForward : Obligations.UpdateFireMovesGuestTimeForward := by
  intro s t h hvalid
  obtain ⟨_, hdue, rfl⟩ := (execEvUpdate_next s t).1 h
  obtain ⟨hone, hmost⟩ := secondsToApply_bounds s.config _ (oneSec_le_owed s.config s.dev s.time hdue)
  have htime := fireUpdate_decodeTime s.config s.time s.dev hvalid
  refine ⟨secondsToApply s.config (s.dev.owed s.time), hone, hmost, htime, ?_⟩
  rw [completeNow_dev, htime]
  exact validTime_addSeconds _ _ _ hvalid

/-! The canonical form of the register file along an effect. -/

theorem readAndClearC_wf (d : Device) (h : Memory.wf d.regs) : Memory.wf d.readAndClearC.regs := by
  rw [Device.readAndClearC, acknowledge_regs]
  exact Device.setReg_wf d regC 0x00 h

theorem firePeriodic_wf (c : Config) (now dl : Nat) (d : Device) (h : Memory.wf d.regs) :
    Memory.wf (d.firePeriodic c now dl).regs := by
  rw [firePeriodic_eq]
  dsimp only
  split
  · exact h
  · exact Device.orReg_wf _ regC pfMask h

theorem fireUpdate_wf (c : Config) (now : Nat) (d : Device) (h : Memory.wf d.regs) :
    Memory.wf (d.fireUpdate c now).regs := by
  have ended := Device.orReg_wf _ regC ufMask
    (encodeTime_wf d (addSeconds c.baseYear d.decodeTime (secondsToApply c (d.owed now))) h)
  unfold Device.fireUpdate
  dsimp only
  split
  · exact Device.orReg_wf _ regC afMask ended
  · exact ended

theorem fireReinject_wf (c : Config) (d : Device) (h : Memory.wf d.regs) : Memory.wf (d.fireReinject c).regs := by
  rcases fireReinject_fields c d with ⟨_, e⟩ | ⟨_, e⟩ <;> rw [e]
  · exact h
  · exact Device.orReg_wf d regC pfMask h

theorem Effect.regs_wf {s : State} {i : Instr} {d : Device} (he : Effect s i d) (h : Memory.wf s.dev.regs) :
    Memory.wf d.regs := by
  cases he with
  | write idx v word dev => rw [dev]; exact writeReg_wf idx v s.time s.dev h
  | statusRead word dev => rw [dev]; exact readAndClearC_wf s.dev h
  | periodic instr dl armed due dev => rw [dev]; exact firePeriodic_wf s.config s.time dl s.dev h
  | update instr due dev => rw [dev]; exact fireUpdate_wf s.config s.time s.dev h
  | reinject instr pending dev => rw [dev]; exact fireReinject_wf s.config s.dev h
  | pure _ dev | select _ _ dev | dropBacklog _ dev | reanchor _ dev | suspend _ dev | resume _ _ dev
  | teardown _ _ dev => rw [dev]; exact h

/-! The control registers along an effect, 10_state.md R53. -/

theorem writeReg_regA (v : Byte) (now : Nat) (d : Device) : d.writeReg regA v now = d.writeCtrlA v now := rfl

theorem Effect.regA_bit7 {s : State} {i : Instr} {d : Device} (he : Effect s i d)
    (h : (s.dev.reg regA).getLsbD 7 = false) : (d.reg regA).getLsbD 7 = false := by
  obtain ⟨v, _, rfl⟩ | ⟨_, hmem⟩ | hreg | hsame := he.reg_cases regA
  · rw [writeReg_regA, writeCtrlA_reg, if_pos rfl, BitVec.getLsbD_and]
    simp
  · exact absurd hmem (by decide)
  · exact absurd hreg (by decide)
  · rw [hsame, h]

theorem Effect.regD_eq {s : State} {i : Instr} {d : Device} (he : Effect s i d) : d.reg regD = s.dev.reg regD := by
  obtain ⟨v, _, rfl⟩ | ⟨_, hmem⟩ | hreg | hsame := he.reg_cases regD
  · exact writeReg_status regD v s.time s.dev regD (.inr rfl)
  · exact absurd hmem (by decide)
  · exact absurd hreg (by decide)
  · exact hsame

/-- The status register is cleared by its read, or gains flags among PF, AF and UF. -/
theorem Effect.status_cases {s : State} {i : Instr} {d : Device} (he : Effect s i d) :
    (encode i = mkWord 0x3 regC 0x00 ∧ d.reg regC = 0x00) ∨
    ∃ m : Byte, m &&& 0x8F = 0 ∧ d.reg regC = s.dev.reg regC ||| m := by
  cases he with
  | statusRead word dev => exact .inl ⟨word, by rw [dev, readAndClearC_reg, if_pos rfl]⟩
  | write idx v word dev =>
    exact .inr ⟨0x00, rfl, by rw [dev, writeReg_status _ _ _ _ _ (.inl rfl)]; exact BitVec.or_zero.symm⟩
  | periodic instr dl armed due dev => exact .inr ⟨0x40, rfl, by rw [dev, firePeriodic_reg, if_pos rfl]⟩
  | reinject instr pending dev => exact .inr ⟨0x40, rfl, by rw [dev, fireReinject_reg, if_pos rfl]⟩
  | update instr due dev =>
    refine .inr ⟨0x10 ||| (if d.alarmMatches then 0x20 else 0x00), by split <;> rfl, ?_⟩
    rw [dev, fireUpdate_reg, if_pos rfl, BitVec.or_assoc]
  | pure _ dev | select _ _ dev | dropBacklog _ dev | reanchor _ dev | suspend _ dev | resume _ _ dev
  | teardown _ _ dev => exact .inr ⟨0x00, rfl, by rw [dev]; exact BitVec.or_zero.symm⟩

theorem Effect.regC_reserved {s : State} {i : Instr} {d : Device} (he : Effect s i d)
    (h : s.dev.reg regC &&& 0x8F = 0) : d.reg regC &&& 0x8F = 0 := by
  obtain ⟨_, hclear⟩ | ⟨m, hm, hor⟩ := he.status_cases
  · rw [hclear]; rfl
  · rw [hor, BitVec.and_or_distrib_right, h, hm]; rfl

/-! The backlog, 10_state.md R52. -/

/-- The two counts of a fire, that of the merged periods and that of a tick merged into a delivered one, add up. -/
theorem firePeriodic_coalescedCount (c : Config) (now dl : Nat) (d : Device) :
    (d.firePeriodic c now dl).coalescedCount =
      if d.pie then
        min c.coalesceMax
          (d.coalescedCount +
            (if d.pf then elapsedPeriods now dl d.periodicPeriod else elapsedPeriods now dl d.periodicPeriod - 1))
      else d.coalescedCount := by
  have hone : 1 ≤ elapsedPeriods now dl d.periodicPeriod := Nat.le_add_left 1 _
  rw [firePeriodic_eq]
  cases d.pie with
  | false => cases d.pf <;> rfl
  | true =>
    cases d.pf with
    | false => rfl
    | true =>
      show min _ (min _ _ + 1) = min _ _
      simp only [if_true]
      omega

theorem firePeriodic_coalescedCount_le (c : Config) (now dl : Nat) (d : Device)
    (h : d.coalescedCount ≤ c.coalesceMax) : (d.firePeriodic c now dl).coalescedCount ≤ c.coalesceMax := by
  rw [firePeriodic_coalescedCount]
  split
  · exact Nat.min_le_left _ _
  · exact h

theorem fireReinject_coalescedCount_le (c : Config) (d : Device) (h : d.coalescedCount ≤ c.coalesceMax) :
    (d.fireReinject c).coalescedCount ≤ c.coalesceMax := by
  rcases fireReinject_fields c d with ⟨_, e⟩ | ⟨_, e⟩ <;> rw [e]
  · exact Nat.min_le_left _ _
  · exact h

theorem Effect.coalescedCount_le {s : State} {i : Instr} {d : Device} (he : Effect s i d)
    (h : s.dev.coalescedCount ≤ s.config.coalesceMax) : d.coalescedCount ≤ s.config.coalesceMax := by
  cases he with
  | write idx v word dev => rw [dev, writeReg_fields]; exact h
  | statusRead word dev => rw [dev, readAndClearC_fields]; exact (Nat.sub_le _ _).trans h
  | dropBacklog instr dev => rw [dev]; exact Nat.zero_le _
  | periodic instr dl armed due dev => rw [dev]; exact firePeriodic_coalescedCount_le s.config s.time dl s.dev h
  | update instr due dev => rw [dev, fireUpdate_fields]; exact h
  | reinject instr pending dev => rw [dev]; exact fireReinject_coalescedCount_le s.config s.dev h
  | pure _ dev | select _ _ dev | reanchor _ dev | suspend _ dev | resume _ _ dev | teardown _ _ dev =>
    rw [dev]; exact h

/-! The periodic timer, 10_state.md R54. -/

theorem periodicPeriod_congr (d e : Device) (h : e.reg regA = d.reg regA) : e.periodicPeriod = d.periodicPeriod := by
  rw [Device.periodicPeriod, Device.periodicPeriod, Device.rs, Device.rs, h]

theorem rateSelect_and_7F (v : Byte) : rateSelect (v &&& 0x7F) = rateSelect v := by revert v; decide

theorem writeCtrlA_periodicPeriod (v : Byte) (now : Nat) (d : Device) :
    (d.writeCtrlA v now).periodicPeriod = rateTable (rateSelect v) := by
  rw [Device.periodicPeriod, Device.rs, writeCtrlA_reg, if_pos rfl, rateSelect_and_7F]

theorem armPeriodic_eq_none (period now : Nat) : armPeriodic period now = none ↔ period = 0 := by
  unfold armPeriodic
  split <;> simp [*]

/-- The deadline and the period stand as before, the timer restarts at `now` with the period then in force, an armed
timer is rearmed by its fire, or TEARDOWN cancels it. -/
theorem Effect.timer_cases {s : State} {i : Instr} {d : Device} (he : Effect s i d) :
    (d.nextPeriodicDeadline = s.dev.nextPeriodicDeadline ∧ d.periodicPeriod = s.dev.periodicPeriod) ∨
    d.nextPeriodicDeadline = armPeriodic d.periodicPeriod s.time ∨
    (s.dev.nextPeriodicDeadline ≠ none ∧ d.nextPeriodicDeadline ≠ none ∧
      d.periodicPeriod = s.dev.periodicPeriod) ∨
    i = .teardown := by
  cases he with
  | write idx v word dev =>
    by_cases ha : idx = regA
    · rw [dev, ha, writeReg_regA, writeCtrlA_periodicPeriod]
      exact .inr (.inl rfl)
    · refine .inl ⟨by rw [dev, writeReg_fields, if_neg ha], periodicPeriod_congr _ _ ?_⟩
      rw [dev, writeReg_other _ _ _ _ _ (Ne.symm ha)]
  | statusRead word dev =>
    refine .inl ⟨by rw [dev, readAndClearC_fields], periodicPeriod_congr _ _ ?_⟩
    rw [dev, readAndClearC_reg, if_neg (by decide)]
  | reanchor instr dev => rw [dev]; exact .inr (.inl rfl)
  | periodic instr dl armed due dev =>
    refine .inr (.inr (.inl ⟨by simp [armed], by rw [dev, firePeriodic_fields]; simp, periodicPeriod_congr _ _ ?_⟩))
    rw [dev, firePeriodic_reg, if_neg (by decide)]
  | update instr due dev =>
    refine .inl ⟨by rw [dev, fireUpdate_fields], periodicPeriod_congr _ _ ?_⟩
    rw [dev, fireUpdate_reg, if_neg (by decide), encodeTime_reg_other _ _ _ (by decide)]
  | reinject instr pending dev =>
    refine .inl ⟨by rw [dev, fireReinject_frame], periodicPeriod_congr _ _ ?_⟩
    rw [dev, fireReinject_reg, if_neg (by decide)]
  | teardown instr live dev => exact .inr (.inr (.inr instr))
  | pure _ dev | select _ _ dev | dropBacklog _ dev | suspend _ dev | resume _ _ dev => rw [dev]; exact .inl ⟨rfl, rfl⟩

theorem Effect.timer_armed {s : State} {i : Instr} {d : Device} (he : Effect s i d) (ht : i ≠ .teardown)
    (h : s.dev.nextPeriodicDeadline = none ↔ s.dev.periodicPeriod = 0) :
    d.nextPeriodicDeadline = none ↔ d.periodicPeriod = 0 := by
  obtain ⟨hdl, hp⟩ | hdl | ⟨hs, hd, hp⟩ | hi := he.timer_cases
  · rw [hdl, hp, h]
  · rw [hdl, armPeriodic_eq_none]
  · rw [hp, ← h]
    exact iff_of_false hd hs
  · exact absurd hi ht

/-! The anchor, 10_state.md R41: it stays, or moves to the `now` at which the operation ends. -/

theorem Effect.anchor_cases {s : State} {i : Instr} {d : Device} (he : Effect s i d) :
    d.timeBase.ref = s.dev.timeBase.ref ∨ (d.timeBase.ref = s.time ∧ carriesWall i = false) := by
  cases he with
  | write idx v word dev => rw [dev, writeReg_fields]; exact .inl rfl
  | statusRead word dev => rw [dev, readAndClearC_fields]; exact .inl rfl
  | reanchor instr dev => rw [dev, instr]; exact .inr ⟨rfl, rfl⟩
  | periodic instr dl armed due dev => rw [dev, firePeriodic_fields]; exact .inl rfl
  | update instr due dev => rw [dev, fireUpdate_fields, instr]; exact .inr ⟨rfl, rfl⟩
  | reinject instr pending dev => rw [dev, fireReinject_frame]; exact .inl rfl
  | pure _ dev | select _ _ dev | dropBacklog _ dev | suspend _ dev | resume _ _ dev | teardown _ _ dev =>
    rw [dev]; exact .inl rfl

theorem exec_anchor_le (i : Instr) (s t : State) (hi : i ≠ .init) (ht : i ≠ .teardown) (h : exec i s = .next t)
    (href : s.dev.timeBase.ref ≤ s.lastNow) : t.dev.timeBase.ref ≤ t.lastNow := by
  by_cases hclk : i = .clkReset
  · subst hclk
    obtain ⟨_, rfl⟩ := ite_next h
    exact Nat.le_refl _
  obtain ⟨he, ⟨ret, last, hcomplete, hlast⟩, _, hcontract⟩ := exec_next i s t hi h
  have hlastNow : t.lastNow = last := by rw [hcomplete, complete_lastNow]
  obtain ⟨rfl, hwall⟩ | ⟨rfl, hwall⟩ := hlast
  · have hmono : s.lastNow ≤ s.time := hcontract (by simp [timeChecked, hwall, hi, hclk, ht])
    obtain hsame | ⟨hnow, _⟩ := he.anchor_cases <;> omega
  · obtain hsame | ⟨_, hnot⟩ := he.anchor_cases
    · omega
    · rw [hwall] at hnot
      cases hnot

/-! The phase and the suspend instant, 10_state.md R48 and R49. -/

theorem Effect.phase_eq {s : State} {i : Instr} {d : Device} (he : Effect s i d) (hs : i ≠ .suspend)
    (hr : i ≠ .resume) (ht : i ≠ .teardown) :
    d.phase = s.dev.phase ∧ d.suspendRecord = s.dev.suspendRecord := by
  cases he with
  | write idx v word dev => rw [dev, writeReg_fields]; exact ⟨rfl, rfl⟩
  | statusRead word dev => rw [dev, readAndClearC_fields]; exact ⟨rfl, rfl⟩
  | periodic instr dl armed due dev => rw [dev, firePeriodic_fields]; exact ⟨rfl, rfl⟩
  | update instr due dev => rw [dev, fireUpdate_fields]; exact ⟨rfl, rfl⟩
  | reinject instr pending dev => rw [dev, fireReinject_frame]; exact ⟨rfl, rfl⟩
  | suspend instr dev => exact absurd instr hs
  | resume instr suspended dev => exact absurd instr hr
  | teardown instr live dev => exact absurd instr ht
  | pure _ dev | select _ _ dev | dropBacklog _ dev | reanchor _ dev => rw [dev]; exact ⟨rfl, rfl⟩

/-- The phases an instruction other than INIT starts from. -/
theorem exec_live (i : Instr) (s t : State) (hi : i ≠ .init) (h : exec i s = .next t) :
    s.dev.phase = .running ∨ s.dev.phase = .suspended := by
  by_cases hr : i = .resume
  · subst hr
    exact .inr (ite_next h).1
  by_cases ht : i = .teardown
  · subst ht
    exact (ite_next h).1
  obtain ⟨_, _, hrunning, _⟩ := exec_next i s t hi h
  exact .inl (hrunning hr ht)

/-- The phases an instruction other than INIT ends in, each with what it leaves in the storage of the suspend instant. -/
theorem exec_phase_cases (i : Instr) (s t : State) (hi : i ≠ .init) (h : exec i s = .next t) :
    (i = .teardown ∧ t.dev.phase = .tornDown) ∨
    (i ≠ .teardown ∧ t.dev.phase = .suspended ∧ t.dev.suspendRecord = some s.time) ∨
    (i ≠ .teardown ∧ t.dev.phase = .running ∧
      (t.dev.suspendRecord = none ∨ s.dev.phase = .running ∧ t.dev.suspendRecord = s.dev.suspendRecord)) := by
  by_cases ht : i = .teardown
  · subst ht
    obtain ⟨_, rfl⟩ := ite_next h
    exact .inl ⟨rfl, rfl⟩
  by_cases hs : i = .suspend
  · subst hs
    obtain ⟨_, rfl⟩ := ite_next h
    exact .inr (.inl ⟨ht, rfl, rfl⟩)
  by_cases hr : i = .resume
  · subst hr
    obtain ⟨_, rfl⟩ := ite_next h
    exact .inr (.inr ⟨ht, rfl, .inl rfl⟩)
  obtain ⟨he, _, hrunning, _⟩ := exec_next i s t hi h
  obtain ⟨hphase, hrecord⟩ := he.phase_eq hs hr ht
  exact .inr (.inr ⟨ht, hphase.trans (hrunning hr ht), .inr ⟨hrunning hr ht, hrecord⟩⟩)

theorem suspendInstant_isSome_iff (d : Device) (h : d.phase = .suspended → d.suspendRecord ≠ none) :
    d.suspendInstant.isSome = true ↔ d.phase = .suspended := by
  by_cases hp : d.phase = .suspended
  · rw [Device.suspendInstant_of_suspended d hp, Option.isSome_iff_ne_none]
    exact iff_of_true (h hp) hp
  · rw [Device.suspendInstant_of_not_suspended d hp]
    exact iff_of_false (by simp) hp

/-! The invariant after INIT, 70_reset_and_hazards.md R340. -/

theorem initRegs_wf (c : Config) : Memory.wf (initRegs c) := by
  have image := Memory.ofImage_wf c.initImage
  exact Memory.write_wf _ _ _ (Memory.write_wf _ _ _ (Memory.write_wf _ _ _ (Memory.write_wf _ _ _ image
    (by decide)) (by decide)) (by decide)) (by decide)

theorem initDevice_wf (c : Config) (now : Nat) : Memory.wf (initDevice c now).regs :=
  encodeTime_wf _ _ (initRegs_wf c)

theorem initDevice_reg (c : Config) (now : Nat) (j : Byte) (hj : j ∉ timeRegs) :
    (initDevice c now).reg j = Memory.read (initRegs c) j.toNat :=
  encodeTime_reg_other _ _ _ hj

theorem initDevice_regA (c : Config) (now : Nat) : (initDevice c now).reg regA = c.initRegA &&& 0x7F := by
  rw [initDevice_reg c now regA (by decide)]
  simp [initRegs, Memory.read_write]

theorem initDevice_regC (c : Config) (now : Nat) : (initDevice c now).reg regC = 0x00 := by
  rw [initDevice_reg c now regC (by decide)]
  simp [initRegs, Memory.read_write]

theorem initDevice_regD (c : Config) (now : Nat) : (initDevice c now).reg regD = 0x80 := by
  rw [initDevice_reg c now regD (by decide)]
  simp [initRegs, Memory.read_write]

theorem initDevice_periodicPeriod (c : Config) (now : Nat) :
    (initDevice c now).periodicPeriod = rateTable (rateSelect c.initRegA) := by
  rw [Device.periodicPeriod, Device.rs, initDevice_regA, rateSelect_and_7F]

theorem execInit_inv (s t : State) (h : execInit s = .next t) : t.Inv := by
  obtain ⟨_, hconfig, rfl⟩ := (execInit_next s t).1 h
  have hphase : (initDevice s.config s.time).phase = .running := rfl
  have harmed : (initDevice s.config s.time).nextPeriodicDeadline = none ↔
      (initDevice s.config s.time).periodicPeriod = 0 := by
    rw [initDevice_periodicPeriod]
    exact armPeriodic_eq_none _ _
  refine ⟨initDevice_wf s.config s.time, fun _ => ⟨?_, ?_, initDevice_regD s.config s.time, Nat.zero_le _, hconfig, ?_⟩,
    fun _ => ⟨harmed, Nat.le_refl _, fun _ => rfl⟩⟩
  · rw [initDevice_regA, BitVec.getLsbD_and]
    simp
  · rw [initDevice_regC]; rfl
  · exact suspendInstant_isSome_iff _ (fun hsusp => by rw [hphase] at hsusp; cases hsusp)

/-! The invariant along an instruction and along a step. -/

theorem exec_inv (i : Instr) (s t : State) (hinv : s.Inv) (h : exec i s = .next t) : t.Inv := by
  by_cases hi : i = .init
  · subst hi
    exact execInit_inv s t h
  obtain ⟨hwf, hattached, hlive⟩ := hinv
  have hstart := exec_live i s t hi h
  have hnotUnattached : s.dev.phase ≠ .unattached := by rcases hstart with hp | hp <;> rw [hp] <;> decide
  obtain ⟨hbit7, hreserved, hregD, hcount, hconfig, _⟩ := hattached hnotUnattached
  obtain ⟨harmed, href, hrecord⟩ := hlive hstart
  obtain ⟨he, _⟩ := exec_next i s t hi h
  have hphases := exec_phase_cases i s t hi h
  have hsameConfig := exec_config i s t h
  refine ⟨he.regs_wf hwf, fun _ => ⟨he.regA_bit7 hbit7, he.regC_reserved hreserved, he.regD_eq.trans hregD, ?_, ?_, ?_⟩,
    fun hend => ?_⟩
  · rw [hsameConfig]
    exact he.coalescedCount_le hcount
  · rw [hsameConfig]
    exact hconfig
  · refine suspendInstant_isSome_iff _ (fun hsusp => ?_)
    obtain ⟨_, hp⟩ | ⟨_, _, hsome⟩ | ⟨_, hp, _⟩ := hphases
    · rw [hsusp] at hp; cases hp
    · rw [hsome]; exact Option.some_ne_none _
    · rw [hsusp] at hp; cases hp
  · have hnot : i ≠ .teardown := by
      obtain ⟨_, hp⟩ | ⟨hne, _⟩ | ⟨hne, _⟩ := hphases
      · rw [hp] at hend; simp at hend
      · exact hne
      · exact hne
    refine ⟨he.timer_armed hnot harmed, exec_anchor_le i s t hi hnot h href, fun hrunning => ?_⟩
    obtain ⟨hteardown, _⟩ | ⟨_, hp, _⟩ | ⟨_, _, hnone | ⟨hp, hsame⟩⟩ := hphases
    · exact absurd hteardown hnot
    · rw [hrunning] at hp; cases hp
    · exact hnone
    · exact hsame.trans (hrecord hp)

theorem accept_inv (s : State) (r : Request) (rest : List Request) (h : s.Inv) : (s.accept r rest).Inv := h

/-- Settles O45: a step waits, or runs one instruction in the state that has accepted its request; INIT establishes the
invariant and every other effect keeps each of its clauses. -/
theorem stepKeepsTheInvariant : Obligations.StepKeepsTheInvariant := by
  intro s t hinv h
  obtain ⟨_, rfl⟩ | ⟨r, rest, w, i, _, _, _, hx⟩ := (step_next s t).1 h
  · exact hinv
  · exact exec_inv i _ t (accept_inv s r rest hinv) hx

end Sys2Proof.Machine

namespace Sys2Proof

/-! The three formats, 30_encoding.md R81: a word is legal exactly when the fields its format requires to be zero are. -/

theorem ite_ok_iff {p : Prop} [Decidable p] (i j : Instr) (e : DecodeError) :
    (if p then .ok i else .error e : Except DecodeError Instr) = .ok j ↔ p ∧ i = j := by
  by_cases h : p <;> simp [h]

theorem formatP_ok (idx : Byte) (i j : Instr) : formatP idx i = .ok j ↔ idx = 0 ∧ i = j := ite_ok_iff i j _

theorem formatXRead_ok (data : Byte) (i j : Instr) : formatXRead data i = .ok j ↔ data = 0 ∧ i = j := ite_ok_iff i j _

theorem formatN_ok (idx data : Byte) (i j : Instr) : formatN idx data i = .ok j ↔ idx = 0 ∧ data = 0 ∧ i = j := by
  unfold formatN
  by_cases h : idx = 0
  · rw [if_pos h, ite_ok_iff, and_iff_right h]
  · rw [if_neg h]
    exact iff_of_false (by simp) fun hn => h hn.1

/-- The operations of format N with their operation codes, R81. -/
def formatNOps : List (BitVec 4 × Instr) :=
  [(0x1, .idxRd), (0x6, .rstReinj), (0x7, .clkReset), (0x8, .suspend), (0x9, .resume), (0xA, .evPeriodic),
   (0xB, .evUpdate), (0xC, .evReinject), (0xD, .init), (0xE, .teardown)]

/-- A format N code is not reserved, not of format X, and none of the writes. -/
theorem formatNOps_op (r : BitVec 4 × Instr) (h : r ∈ formatNOps) :
    r.1 ≠ 0xF ∧ r.1 ∉ [0x2, 0x3, 0x4, 0x5] ∧ r.1 ∉ [0x0, 0x2, 0x4] := by
  revert r; decide

theorem formatNOps_row (r : BitVec 4 × Instr) (h : r ∈ formatNOps) :
    r.2.wellFormed = true ∧ encode r.2 = mkWord r.1 0x00 0x00 := by
  revert r; decide

/-- What the decoder can do with a word, by its operation code. -/
inductive Decoding (w : TWord) : Prop where
  | idxWr (op : opField w = 0x0) (eq : decode w = formatP (idxField w) (.idxWr (dataField w)))
  | datWr (op : opField w = 0x2) (eq : decode w = .ok (decodeDatWr (idxField w) (dataField w)))
  | datRd (op : opField w = 0x3) (eq : decode w = formatXRead (dataField w) (decodeDatRd (idxField w)))
  | setByte (op : opField w = 0x4) (eq : decode w = .ok (decodeSetByte (idxField w) (dataField w)))
  | getByte (op : opField w = 0x5) (eq : decode w = formatXRead (dataField w) (decodeGetByte (idxField w)))
  | noOperand (i : Instr) (op : (opField w, i) ∈ formatNOps) (eq : decode w = formatN (idxField w) (dataField w) i)
  | reserved (op : opField w = 0xF) (eq : decode w = .error .reservedOp)

theorem decode_cases (w : TWord) : Decoding w := by
  have hop : ∀ op : BitVec 4, op ∈ [0x0, 0x2, 0x3, 0x4, 0x5, 0xF] ∨ ∃ r ∈ formatNOps, op = r.1 := by decide
  rcases hop (opField w) with h | ⟨⟨op, i⟩, hr, h⟩
  · simp only [List.mem_cons, List.not_mem_nil, or_false] at h
    rcases h with h | h | h | h | h | h
    · exact .idxWr h (by simp [decode, h])
    · exact .datWr h (by simp [decode, h])
    · exact .datRd h (by simp [decode, h])
    · exact .setByte h (by simp [decode, h])
    · exact .getByte h (by simp [decode, h])
    · exact .reserved h (by simp [decode, h])
  · refine .noOperand i (h ▸ hr) ?_
    simp only [formatNOps, List.mem_cons, Prod.mk.injEq, List.not_mem_nil, or_false] at hr
    rcases hr with ⟨rfl, rfl⟩ | ⟨rfl, rfl⟩ | ⟨rfl, rfl⟩ | ⟨rfl, rfl⟩ | ⟨rfl, rfl⟩ | ⟨rfl, rfl⟩ | ⟨rfl, rfl⟩ |
      ⟨rfl, rfl⟩ | ⟨rfl, rfl⟩ | ⟨rfl, rfl⟩ <;> simp [decode, h]

/-- The legal words, R102: the operation code is none of the reserved and every field the format requires to be zero is
zero. -/
theorem decode_ok_iff_fields (w : TWord) :
    (∃ i, decode w = .ok i) ↔ opField w ≠ 0xF ∧ (opField w ∉ [0x2, 0x3, 0x4, 0x5] → idxField w = 0) ∧
      (opField w ∉ [0x0, 0x2, 0x4] → dataField w = 0) := by
  cases decode_cases w with
  | idxWr op eq => simp [op, eq, formatP_ok]
  | datWr op eq | setByte op eq => simp [op, eq]
  | datRd op eq | getByte op eq => simp [op, eq, formatXRead_ok]
  | noOperand i op eq =>
    obtain ⟨hreserved, hformatX, hwrite⟩ := formatNOps_op _ op
    simp only [eq, formatN_ok, ne_eq, hreserved, hformatX, hwrite, not_false_eq_true, true_and, forall_const,
      exists_and_left, exists_eq', and_true]
  | reserved op eq => simp [op, eq]

/-! The rows of format X, R84: below 0x0E each index has a row of its own, from there on the block of the index picks
the row. -/

theorem index_named_or_nvram (idx : Byte) :
    idx ∈ ([0x00, 0x01, 0x02, 0x03, 0x04, 0x05, 0x06, 0x07, 0x08, 0x09, 0x0A, 0x0B, 0x0C, 0x0D] : List Byte) ∨
    14 ≤ idx.toNat := by revert idx; decide

theorem decodeDatRd_of_nvram (idx : Byte) (h : 14 ≤ idx.toNat) :
    decodeDatRd idx =
      if idx.toNat < 0x10 then .datRdNvram0E idx else if idx.toNat < 0x20 then .datRdNvram10 idx
      else if idx.toNat < 0x40 then .datRdNvram20 idx else if idx.toNat < 0x80 then .datRdNvram40 idx
      else .datRdNvram80 idx := by
  obtain ⟨k, hk⟩ := Nat.exists_eq_add_of_le' h
  rw [decodeDatRd, hk]; rfl

theorem decodeGetByte_of_nvram (idx : Byte) (h : 14 ≤ idx.toNat) :
    decodeGetByte idx =
      if idx.toNat < 0x10 then .getByteNvram0E idx else if idx.toNat < 0x20 then .getByteNvram10 idx
      else if idx.toNat < 0x40 then .getByteNvram20 idx else if idx.toNat < 0x80 then .getByteNvram40 idx
      else .getByteNvram80 idx := by
  obtain ⟨k, hk⟩ := Nat.exists_eq_add_of_le' h
  rw [decodeGetByte, hk]; rfl

end Sys2Proof

namespace Sys2Proof.Machine

open Sys2Proof

/-! The row of an index is well formed and its word carries that index. -/

theorem decodeDatWr_row (idx v : Byte) :
    (decodeDatWr idx v).wellFormed = true ∧ encode (decodeDatWr idx v) = mkWord 0x2 idx v := by
  rcases index_named_or_nvram idx with h | h
  · fin_cases h <;> exact ⟨rfl, rfl⟩
  · rw [decodeDatWr_of_nvram idx v h]
    split_ifs <;> exact ⟨(inBlock_iff _ _ _).2 (by simp only [BitVec.reduceToNat]; omega), rfl⟩

theorem decodeDatRd_row (idx : Byte) :
    (decodeDatRd idx).wellFormed = true ∧ encode (decodeDatRd idx) = mkWord 0x3 idx 0x00 := by
  rcases index_named_or_nvram idx with h | h
  · fin_cases h <;> exact ⟨rfl, rfl⟩
  · rw [decodeDatRd_of_nvram idx h]
    split_ifs <;> exact ⟨(inBlock_iff _ _ _).2 (by simp only [BitVec.reduceToNat]; omega), rfl⟩

theorem decodeSetByte_row (idx v : Byte) :
    (decodeSetByte idx v).wellFormed = true ∧ encode (decodeSetByte idx v) = mkWord 0x4 idx v := by
  rcases index_named_or_nvram idx with h | h
  · fin_cases h <;> exact ⟨rfl, rfl⟩
  · rw [decodeSetByte_of_nvram idx v h]
    split_ifs <;> exact ⟨(inBlock_iff _ _ _).2 (by simp only [BitVec.reduceToNat]; omega), rfl⟩

theorem decodeGetByte_row (idx : Byte) :
    (decodeGetByte idx).wellFormed = true ∧ encode (decodeGetByte idx) = mkWord 0x5 idx 0x00 := by
  rcases index_named_or_nvram idx with h | h
  · fin_cases h <;> exact ⟨rfl, rfl⟩
  · rw [decodeGetByte_of_nvram idx h]
    split_ifs <;> exact ⟨(inBlock_iff _ _ _).2 (by simp only [BitVec.reduceToNat]; omega), rfl⟩

/-- A well-formed instruction of operation code 3 is the DAT_RD row of its word's index. -/
theorem eq_decodeDatRd (i : Instr) (hwf : i.wellFormed = true) (hop : opField (encode i) = 0x3) :
    i = decodeDatRd (idxField (encode i)) := by
  cases i <;> simp [encode] at hop <;> simp only [encode, idxField_mkWord]
  case datRdNvram0E idx | datRdNvram10 idx | datRdNvram20 idx | datRdNvram40 idx | datRdNvram80 idx =>
    obtain ⟨hlo, hhi⟩ := (inBlock_iff _ _ _).1 hwf
    simp only [BitVec.reduceToNat] at hlo hhi
    rw [decodeDatRd_of_nvram idx (by omega)]
    grind
  all_goals rfl

/-- A well-formed instruction of operation code 5 is the GET_BYTE row of its word's index. -/
theorem eq_decodeGetByte (i : Instr) (hwf : i.wellFormed = true) (hop : opField (encode i) = 0x5) :
    i = decodeGetByte (idxField (encode i)) := by
  cases i <;> simp [encode] at hop <;> simp only [encode, idxField_mkWord]
  case getByteNvram0E idx | getByteNvram10 idx | getByteNvram20 idx | getByteNvram40 idx | getByteNvram80 idx =>
    obtain ⟨hlo, hhi⟩ := (inBlock_iff _ _ _).1 hwf
    simp only [BitVec.reduceToNat] at hlo hhi
    rw [decodeGetByte_of_nvram idx (by omega)]
    grind
  all_goals rfl

/-! The decoder on the words the encoder builds. -/

theorem decode_idxWr_word (v : Byte) : decode (mkWord 0x0 0x00 v) = .ok (.idxWr v) := by
  simp [decode, formatP]

theorem decode_datWr_word (idx v : Byte) : decode (mkWord 0x2 idx v) = .ok (decodeDatWr idx v) := by
  simp [decode]

theorem decode_datRd_word (idx : Byte) : decode (mkWord 0x3 idx 0x00) = .ok (decodeDatRd idx) := by
  simp [decode, formatXRead]

theorem decode_setByte_word (idx v : Byte) : decode (mkWord 0x4 idx v) = .ok (decodeSetByte idx v) := by
  simp [decode]

theorem decode_getByte_word (idx : Byte) : decode (mkWord 0x5 idx 0x00) = .ok (decodeGetByte idx) := by
  simp [decode, formatXRead]

theorem decode_encode_of_formatN (r : BitVec 4 × Instr) (h : r ∈ formatNOps) : decode (encode r.2) = .ok r.2 := by
  revert r; decide

/-- Settles O1: an access is the row of its word's index, and the other eleven words are read off. -/
theorem decodeOfEncodeIsTheInstruction : Obligations.DecodeOfEncodeIsTheInstruction := by
  intro i hwf
  rcases exec_shape i with ⟨idx, v, he | he, _⟩ | ⟨idx, he, _⟩ | ⟨idx, he, _⟩ | ⟨v, rfl⟩ | hm
  · have hrow := eq_decodeDatWr i hwf (by simp [he])
    simp only [he, idxField_mkWord, dataField_mkWord] at hrow
    rw [he, decode_datWr_word, ← hrow]
  · have hrow := eq_decodeSetByte i hwf (by simp [he])
    simp only [he, idxField_mkWord, dataField_mkWord] at hrow
    rw [he, decode_setByte_word, ← hrow]
  · have hrow := eq_decodeDatRd i hwf (by simp [he])
    simp only [he, idxField_mkWord] at hrow
    rw [he, decode_datRd_word, ← hrow]
  · have hrow := eq_decodeGetByte i hwf (by simp [he])
    simp only [he, idxField_mkWord] at hrow
    rw [he, decode_getByte_word, ← hrow]
  · exact decode_idxWr_word v
  · obtain ⟨r, hr, rfl⟩ := List.mem_map.1 (show i ∈ formatNOps.map Prod.snd from hm)
    exact decode_encode_of_formatN r hr

/-- Settles O2: what the decoder answers for each operation code, and the word as its three fields. -/
theorem encodeOfDecodeIsTheWord : Obligations.EncodeOfDecodeIsTheWord := by
  intro w i h
  rw [← mkWord_fields w]
  cases decode_cases w with
  | idxWr op eq =>
    obtain ⟨hidx, rfl⟩ := (formatP_ok _ _ _).1 (eq.symm.trans h)
    rw [op, hidx]
    exact ⟨rfl, rfl⟩
  | datWr op eq =>
    cases eq.symm.trans h
    rw [op]
    exact decodeDatWr_row _ _
  | datRd op eq =>
    obtain ⟨hdata, rfl⟩ := (formatXRead_ok _ _ _).1 (eq.symm.trans h)
    rw [op, hdata]
    exact decodeDatRd_row _
  | setByte op eq =>
    cases eq.symm.trans h
    rw [op]
    exact decodeSetByte_row _ _
  | getByte op eq =>
    obtain ⟨hdata, rfl⟩ := (formatXRead_ok _ _ _).1 (eq.symm.trans h)
    rw [op, hdata]
    exact decodeGetByte_row _
  | noOperand j op eq =>
    obtain ⟨hidx, hdata, rfl⟩ := (formatN_ok _ _ _ _).1 (eq.symm.trans h)
    rw [hidx, hdata]
    exact formatNOps_row _ op
  | reserved op eq => cases eq.symm.trans h

/-! Index resolution, 30_encoding.md R82: the fields it leaves. -/

@[simp] theorem opField_resolveIndex (selected : Byte) (w : TWord) :
    opField (resolveIndex selected w) = opField w := by
  unfold resolveIndex
  split_ifs <;> simp

@[simp] theorem dataField_resolveIndex (selected : Byte) (w : TWord) :
    dataField (resolveIndex selected w) = dataField w := by
  unfold resolveIndex
  split_ifs <;> simp

theorem resolveIndex_of_not_formatX (selected : Byte) (w : TWord) (h : opField w ∉ [0x2, 0x3, 0x4, 0x5]) :
    resolveIndex selected w = w := by
  simp only [List.mem_cons, not_or] at h
  obtain ⟨hwr, hrd, _⟩ := h
  exact if_neg (not_or.2 ⟨hwr, hrd⟩)

/-! A step on a request, 20_memory.md R70. -/

theorem step_eq_runWord (s : State) (r : Request) (rest : List Request) (w : TWord) (hin : s.inputs = r :: rest)
    (hw : r.transactionWord s.dev.selectedIndex = some w) : step s = runWord w (s.accept r rest) := by
  simp only [step, runNext, hin, runRequest, State.accept_dev, hw]

theorem runWord_ok (w : TWord) (s : State) (i : Instr) (h : decode w = .ok i) : runWord w s = exec i s := by
  rw [runWord, h]

theorem runWord_refused (w : TWord) (s : State) (h : ¬ ∃ i, decode w = .ok i) : runWord w s = .refused .reservedWord := by
  cases hw : decode w with
  | ok i => exact absurd ⟨i, hw⟩ h
  | error e => rw [runWord, hw]

/-- A step whose request has a legal word runs the word's instruction in the state that has accepted the request. -/
theorem step_eq_exec (s : State) (r : Request) (rest : List Request) (w : TWord) (i : Instr)
    (hin : s.inputs = r :: rest) (hw : r.transactionWord s.dev.selectedIndex = some w) (hi : decode w = .ok i) :
    step s = exec i (s.accept r rest) :=
  (step_eq_runWord s r rest w hin hw).trans (runWord_ok w _ i hi)

/-- Settles O3: index resolution leaves the fields that make a word reserved, and the legal words are characterised by
their fields. -/
theorem reservedWordsAndOnlyTheyAreRefused : Obligations.ReservedWordsAndOnlyTheyAreRefused := by
  refine ⟨fun s w time rest hin hres => ?_, fun w hop hidx hdata => (decode_ok_iff_fields w).2 ⟨hop, hidx, hdata⟩⟩
  rw [step_eq_runWord s _ rest _ hin rfl]
  refine runWord_refused _ _ fun hok => ?_
  obtain ⟨hop, hidx, hdata⟩ := (decode_ok_iff_fields _).1 hok
  rw [opField_resolveIndex] at hop hidx hdata
  rcases hres with hF | ⟨hX, hne⟩ | ⟨hD, hne⟩
  · exact hop hF
  · rw [resolveIndex_of_not_formatX _ w hX] at hidx
    exact hne (hidx hX)
  · rw [dataField_resolveIndex] at hdata
    exact hne (hdata hD)

/-- Settles O6: index resolution replaces the index of a data-port word, and a direct call has the word of its
address. -/
theorem dataPortWordsUseTheSelectedIndex : Obligations.DataPortWordsUseTheSelectedIndex := by
  intro s rest idx v now addr
  refine ⟨fun hin => ?datWr, fun hin => ?datRd, fun hin haddr => ?setByte, fun hin haddr => ?getByte⟩
  case datWr =>
    exact step_eq_exec s _ rest (mkWord 0x2 s.dev.selectedIndex v) _ hin (by simp [Request.transactionWord, resolveIndex])
      (decode_datWr_word _ v)
  case datRd =>
    exact step_eq_exec s _ rest (mkWord 0x3 s.dev.selectedIndex 0x00) _ hin
      (by simp [Request.transactionWord, resolveIndex]) (decode_datRd_word _)
  case setByte => exact step_eq_exec s _ rest _ _ hin (if_pos haddr) (decode_setByte_word _ v)
  case getByte => exact step_eq_exec s _ rest _ _ hin (if_pos haddr) (decode_getByte_word _)

/-- A data-port read of a ready state completes at every index. -/
theorem datRd_completes (idx : Byte) (s : State) (h : s.Ready) : ∃ t, datRd idx s = .next t := by
  by_cases hc : idx = regC
  · exact ⟨_, (datRd_next idx s _).2 ⟨h, .inl ⟨hc, rfl⟩⟩⟩
  · exact ⟨_, (datRd_next idx s _).2 ⟨h, .inr ⟨hc, rfl⟩⟩⟩

/-- Settles O12: the accesses and the five operations without an operand that are left complete in a ready state. -/
theorem runningOperationsComplete : Obligations.RunningOperationsComplete := by
  intro i s hready hinit hresume hevent
  have hrun : ∀ u : State, ∃ t, whenRunning s (.next u) = .next t := fun u => ⟨u, whenRunning_ready s _ hready⟩
  rcases exec_shape i with ⟨idx, v, _, hx⟩ | ⟨idx, _, hx⟩ | ⟨idx, _, hx⟩ | ⟨v, rfl⟩ | hm
  · rw [hx]; exact hrun _
  · rw [hx]; exact datRd_completes idx s hready
  · rw [hx]; exact hrun _
  · exact hrun _
  · simp only [List.mem_cons, List.not_mem_nil, or_false] at hm
    rcases hm with rfl | rfl | rfl | rfl | rfl | rfl | rfl | rfl | rfl | rfl
    · exact hrun _
    · exact hrun _
    · exact ⟨_, if_pos hready.1⟩
    · exact ⟨_, if_pos hready.1⟩
    · exact absurd rfl hresume
    · cases hevent
    · cases hevent
    · cases hevent
    · exact absurd rfl hinit
    · exact ⟨_, if_pos (.inl hready.1)⟩

/-- Settles O4: the decoder evaluates on each word. -/
theorem sampleWordsDecode : Obligations.SampleWordsDecode := by
  unfold Obligations.SampleWordsDecode
  decide

/-- Settles O5: a transaction word is a request whose word has its index resolved. -/
theorem stepRunsTheDecodedInstruction : Obligations.StepRunsTheDecodedInstruction :=
  fun s _ _ rest i hin hi => step_eq_exec s _ rest _ i hin rfl hi

end Sys2Proof.Machine

namespace Sys2Proof.Machine

open Sys2Proof

/-! Port accesses in a ready state, 40_port_access.md: the word of an access says what it does, 30_encoding.md R81. -/

/-- The word of a write, by the data port or by SET_BYTE. -/
abbrev IsWriteWord (w : TWord) (idx v : Byte) : Prop := w = mkWord 0x2 idx v ∨ w = mkWord 0x4 idx v

/-- The word of a read that clears nothing: GET_BYTE, or the data port away from the status register. -/
abbrev IsPureReadWord (w : TWord) (idx : Byte) : Prop :=
  (w = mkWord 0x3 idx 0x00 ∧ idx ≠ regC) ∨ w = mkWord 0x5 idx 0x00

theorem mkWord_inj {op op' : BitVec 4} {idx idx' v v' : Byte} (h : mkWord op idx v = mkWord op' idx' v') :
    op = op' ∧ idx = idx' ∧ v = v' :=
  ⟨by simpa using congrArg opField h, by simpa using congrArg idxField h, by simpa using congrArg dataField h⟩

/-- An instruction with a write word completes with the semantic decoder's write. -/
theorem exec_of_isWriteWord (i : Instr) (idx v : Byte) (s : State) (hs : s.Ready)
    (hw : IsWriteWord (encode i) idx v) :
    exec i s = .next (completeNow s (s.dev.writeReg idx v s.time) none) := by
  obtain ⟨op, hop, he⟩ : ∃ op, (op = 0x2 ∨ op = 0x4) ∧ encode i = mkWord op idx v :=
    hw.elim (fun h => ⟨_, .inl rfl, h⟩) (fun h => ⟨_, .inr rfl, h⟩)
  rcases exec_shape i with ⟨idx', v', h, hx⟩ | ⟨idx', h, _⟩ | ⟨idx', h, _⟩ | ⟨v', rfl⟩ | hm
  · obtain ⟨rfl, rfl⟩ : idx = idx' ∧ v = v' := by
      rcases h with h | h <;> exact (mkWord_inj (he.symm.trans h)).2
    rw [hx, whenRunning_ready s _ hs]
  · obtain ⟨rfl, _⟩ := mkWord_inj (he.symm.trans h)
    exact absurd hop (by decide)
  · obtain ⟨rfl, _⟩ := mkWord_inj (he.symm.trans h)
    exact absurd hop (by decide)
  · obtain ⟨rfl, _⟩ := mkWord_inj he
    exact absurd hop (by decide)
  · exact absurd hm (instr_of_formatX i op idx v he (by rcases hop with h | h <;> simp [h]))

/-- An instruction with a pure read word completes with the semantic decoder's read, the device record as it was. -/
theorem exec_of_isPureReadWord (i : Instr) (idx : Byte) (s : State) (hs : s.Ready)
    (hw : IsPureReadWord (encode i) idx) :
    exec i s = .next (completeNow s s.dev (some (s.dev.peekReg idx))) := by
  obtain ⟨op, hop, he⟩ : ∃ op, (op = 0x3 ∧ idx ≠ regC ∨ op = 0x5) ∧ encode i = mkWord op idx 0x00 :=
    hw.elim (fun h => ⟨_, .inl ⟨rfl, h.2⟩, h.1⟩) (fun h => ⟨_, .inr rfl, h⟩)
  rcases exec_shape i with ⟨idx', v', h, _⟩ | ⟨idx', h, hx⟩ | ⟨idx', h, hx⟩ | ⟨v', rfl⟩ | hm
  · obtain rfl | rfl : op = 0x2 ∨ op = 0x4 := h.imp (fun h => (mkWord_inj (he.symm.trans h)).1)
      (fun h => (mkWord_inj (he.symm.trans h)).1)
    all_goals simp at hop
  · obtain ⟨rfl, rfl, _⟩ := mkWord_inj (he.symm.trans h)
    have hC : idx ≠ regC := by simpa using hop
    rw [hx]
    exact (datRd_next idx s _).2 ⟨hs, .inr ⟨hC, rfl⟩⟩
  · obtain ⟨_, rfl, _⟩ := mkWord_inj (he.symm.trans h)
    rw [hx, whenRunning_ready s _ hs]
  · obtain ⟨rfl, _⟩ := mkWord_inj he
    simp at hop
  · exact absurd hm (instr_of_formatX i op idx 0x00 he (by rcases hop with ⟨h, _⟩ | h <;> simp [h]))

/-- A completion that leaves the line where it was reports no edge. -/
theorem completes_without_edge (i : Instr) (s : State) (d : Device) (ret : Option Byte)
    (hx : exec i s = .next (completeNow s d ret)) (hline : d.line = s.dev.line) :
    ∃ t, exec i s = .next t ∧ t.dev = d ∧ t.edge = none ∧ ReportsNow s t ret :=
  ⟨_, hx, rfl, by rw [completeNow_edge, hline, edgeOf_self], completeNow_reports s d ret⟩

/-! The semantic decoder at the indices of one behaviour, 40_port_access.md R135 and R136. -/

theorem writeReg_of_stored (idx v : Byte) (now : Nat) (d : Device) (hA : idx ≠ regA) (hC : idx ≠ regC)
    (hD : idx ≠ regD) : d.writeReg idx v now = d.setReg idx v := by
  rcases writeReg_cases idx v now d with ⟨_, _, _, e⟩ | ⟨hA', _⟩ | ⟨hC' | hD', _⟩
  · exact e
  · exact absurd hA' hA
  · exact absurd hC' hC
  · exact absurd hD' hD

theorem writeReg_of_ignored (idx v : Byte) (now : Nat) (d : Device) (h : idx = regC ∨ idx = regD) :
    d.writeReg idx v now = d := by
  rcases writeReg_cases idx v now d with ⟨_, hC, hD, _⟩ | ⟨rfl, _⟩ | ⟨_, e⟩
  · exact absurd h (not_or.2 ⟨hC, hD⟩)
  · exact absurd h (by decide)
  · exact e

theorem peekReg_of_stored (idx : Byte) (d : Device) (hC : idx ≠ regC) (hD : idx ≠ regD) :
    d.peekReg idx = d.reg idx := by
  rcases peekReg_cases idx d with ⟨_, _, e⟩ | ⟨hC', _⟩ | ⟨hD', _⟩
  · exact e
  · exact absurd hC' hC
  · exact absurd hD' hD

theorem peekReg_regD (d : Device) : d.peekReg regD = 0x80 := by
  rcases peekReg_cases regD d with ⟨_, h, _⟩ | ⟨h, _⟩ | ⟨_, e⟩
  · exact absurd rfl h
  · exact absurd h (by decide)
  · exact e

/-! A register store: its frame, and the line after it (10_state.md R39). -/

theorem setReg_sameRegsBut (d : Device) (idx v : Byte) : d.SameRegsBut [idx] (d.setReg idx v) :=
  fun j hj => Device.reg_setReg_other d idx j v (List.ne_of_not_mem_cons hj).symm

theorem setReg_sameButRegs (d : Device) (idx v : Byte) : d.SameButRegs (d.setReg idx v) :=
  ⟨rfl, rfl, rfl, rfl, rfl, rfl, rfl⟩

theorem setReg_line_of_ne (d : Device) (idx v : Byte) (hB : idx ≠ regB) (hC : idx ≠ regC) :
    (d.setReg idx v).line = d.line := by
  simp only [Device.line, Device.reg_setReg_other d idx _ v hB, Device.reg_setReg_other d idx _ v hC]

theorem setReg_regB_line (d : Device) (v : Byte) : (d.setReg regB v).line = (d.reg regC &&& v &&& flagMask != 0) := by
  rw [Device.line, Device.reg_setReg_same, Device.reg_setReg_other d regB regC v (by decide)]

theorem edgeOf_eq_assert (before after : Bool) :
    edgeOf before after = some .assert ↔ before = false ∧ after = true := by
  cases before <;> cases after <;> simp [edgeOf]

theorem edgeOf_eq_deassert (before after : Bool) :
    edgeOf before after = some .deassert ↔ before = true ∧ after = false := by
  cases before <;> cases after <;> simp [edgeOf]

/-- A write to an index that is no control register stores the byte and does nothing else (R124, R125, R126). -/
theorem write_stores_the_byte (i : Instr) (idx v : Byte) (s : State) (hs : s.Ready)
    (hw : IsWriteWord (encode i) idx v) (hidx : idx ≠ regA ∧ idx ≠ regB ∧ idx ≠ regC ∧ idx ≠ regD) :
    ∃ t, exec i s = .next t ∧ t.dev.reg idx = v ∧ s.dev.SameRegsBut [idx] t.dev ∧ s.dev.SameButRegs t.dev ∧
      t.edge = none ∧ ReportsNow s t none := by
  obtain ⟨hA, hB, hC, hD⟩ := hidx
  have hx := exec_of_isWriteWord i idx v s hs hw
  rw [writeReg_of_stored idx v s.time s.dev hA hC hD] at hx
  obtain ⟨t, ht, hdev, hedge, hrep⟩ := completes_without_edge i s _ none hx (setReg_line_of_ne s.dev idx v hB hC)
  refine ⟨t, ht, ?_, ?_, ?_, hedge, hrep⟩ <;> rw [hdev]
  · exact Device.reg_setReg_same s.dev idx v
  · exact setReg_sameRegsBut s.dev idx v
  · exact setReg_sameButRegs s.dev idx v

/-- A pure read changes nothing and returns what the semantic decoder reads (R129, R130, R131, R132). -/
theorem read_is_pure (i : Instr) (idx : Byte) (s : State) (hs : s.Ready) (hw : IsPureReadWord (encode i) idx) :
    ∃ t, exec i s = .next t ∧ t.dev = s.dev ∧ t.edge = none ∧ ReportsNow s t (some (s.dev.peekReg idx)) :=
  completes_without_edge i s s.dev _ (exec_of_isPureReadWord i idx s hs hw) rfl

/-- A read by either reader away from control registers C and D returns the stored byte (R129, R130, R131). -/
theorem stored_read_is_pure (i : Instr) (idx : Byte) (s : State) (hs : s.Ready)
    (hw : encode i = mkWord 0x3 idx 0x00 ∨ encode i = mkWord 0x5 idx 0x00) (hC : idx ≠ regC) (hD : idx ≠ regD) :
    ∃ t, exec i s = .next t ∧ t.dev = s.dev ∧ t.edge = none ∧ ReportsNow s t (some (s.dev.reg idx)) :=
  peekReg_of_stored idx s.dev hC hD ▸ read_is_pure i idx s hs (hw.imp_left fun h => ⟨h, hC⟩)

/-! An index of an NVRAM block is no control register, 30_encoding.md R83. -/

theorem nvram_of_inBlock (lo hi idx : Byte) (h : inBlock lo hi idx = true) (hlo : 0x0E ≤ lo) : 0x0E ≤ idx :=
  BitVec.le_trans hlo (BitVec.le_def.2 ((inBlock_iff lo hi idx).1 h).1)

theorem nvram_not_control (idx : Byte) (h : 0x0E ≤ idx) : idx ≠ regA ∧ idx ≠ regB ∧ idx ≠ regC ∧ idx ≠ regD := by
  revert idx; decide

/-- Settles O15: each of the twenty instructions has a write word of its index, and none of the ten indices is a control
register. -/
theorem timeAndAlarmWritesStoreTheByte : Obligations.TimeAndAlarmWritesStoreTheByte := by
  intro v s hs p hp
  obtain ⟨hw, hidx⟩ : IsWriteWord (encode p.1) p.2 v ∧ p.2 ≠ regA ∧ p.2 ≠ regB ∧ p.2 ≠ regC ∧ p.2 ≠ regD := by
    fin_cases hp <;> simp [IsWriteWord, encode]
  exact write_stores_the_byte p.1 p.2 v s hs hw hidx

/-- Settles O16: each of the ten instructions has a write word of its index, and well-formedness puts the index in the
block of its row. -/
theorem nvramWritesStoreTheByte : Obligations.NvramWritesStoreTheByte := by
  intro idx v s hs i hi hwf
  obtain ⟨hw, hnvram⟩ : IsWriteWord (encode i) idx v ∧ 0x0E ≤ idx := by
    fin_cases hi <;> exact ⟨by simp [IsWriteWord, encode], nvram_of_inBlock _ _ idx hwf (by decide)⟩
  exact write_stores_the_byte i idx v s hs hw (nvram_not_control idx hnvram)

/-- Settles O17: each instruction has a write word of an index at which the semantic decoder ignores a write. -/
theorem controlCAndDWritesAreIgnored : Obligations.ControlCAndDWritesAreIgnored := by
  intro v s hs i hi
  obtain ⟨idx, hidx, hw⟩ : ∃ idx, (idx = regC ∨ idx = regD) ∧ IsWriteWord (encode i) idx v := by
    fin_cases hi
    · exact ⟨regC, .inl rfl, .inl rfl⟩
    · exact ⟨regD, .inr rfl, .inl rfl⟩
    · exact ⟨regC, .inl rfl, .inr rfl⟩
    · exact ⟨regD, .inr rfl, .inr rfl⟩
  have hx := exec_of_isWriteWord i idx v s hs hw
  rw [writeReg_of_ignored idx v s.time s.dev hidx] at hx
  exact completes_without_edge i s s.dev none hx rfl

/-- Settles O18: the write is a store of control register B, and the edge compares the line before it with the line that
the new enables give. -/
theorem controlBWriteMovesTheLineAtOnce : Obligations.ControlBWriteMovesTheLineAtOnce := by
  intro v s hs i hi
  have hw : IsWriteWord (encode i) regB v := by
    fin_cases hi
    · exact .inl rfl
    · exact .inr rfl
  have hx := exec_of_isWriteWord i regB v s hs hw
  rw [writeReg_of_stored regB v s.time s.dev (by decide) (by decide) (by decide)] at hx
  refine ⟨_, hx, Device.reg_setReg_same s.dev regB v, setReg_sameRegsBut s.dev regB v, setReg_sameButRegs s.dev regB v,
    ?line, ?assert, ?deassert, completeNow_reports s _ none⟩
  case line => rw [completeNow_dev, setReg_regB_line, bne_iff_ne]
  case assert => rw [completeNow_edge, edgeOf_eq_assert, setReg_regB_line, bne_iff_ne]
  case deassert => rw [completeNow_edge, edgeOf_eq_deassert, setReg_regB_line, bne_eq_false_iff_eq]

/-- Settles O20: each of the twenty-four instructions has a read word of its index, and the semantic decoder reads
the stored byte there. -/
theorem storedRegisterReadsArePure : Obligations.StoredRegisterReadsArePure := by
  intro s hs p hp
  obtain ⟨hw, hC, hD⟩ : (encode p.1 = mkWord 0x3 p.2 0x00 ∨ encode p.1 = mkWord 0x5 p.2 0x00) ∧
      p.2 ≠ regC ∧ p.2 ≠ regD := by
    fin_cases hp <;> decide
  exact stored_read_is_pure p.1 p.2 s hs hw hC hD

/-- Settles O21: each of the ten instructions has a read word of its index, and well-formedness puts the index in the
block of its row, away from the status register. -/
theorem nvramReadsArePure : Obligations.NvramReadsArePure := by
  intro idx s hs i hi hwf
  obtain ⟨hw, hnvram⟩ : (encode i = mkWord 0x3 idx 0x00 ∨ encode i = mkWord 0x5 idx 0x00) ∧ 0x0E ≤ idx := by
    fin_cases hi <;> exact ⟨by simp [encode], nvram_of_inBlock _ _ idx hwf (by decide)⟩
  obtain ⟨_, _, hC, hD⟩ := nvram_not_control idx hnvram
  exact stored_read_is_pure i idx s hs hw hC hD

/-- Settles O13: the write of the selected index leaves the line. -/
theorem indexSelectWriteStoresTheIndex : Obligations.IndexSelectWriteStoresTheIndex :=
  fun v => ⟨decode_idxWr_word v, fun s hs =>
    completes_without_edge (.idxWr v) s { s.dev with selectedIndex := v } none (whenRunning_ready s _ hs) rfl⟩

/-- Settles O14: the read completes with the device record as it was. -/
theorem indexSelectReadReturnsFF : Obligations.IndexSelectReadReturnsFF :=
  ⟨by decide, fun s hs => completes_without_edge .idxRd s s.dev (some 0xFF) (whenRunning_ready s _ hs) rfl⟩

/-- Settles O22: both instructions have a pure read word of control register D, where the semantic decoder reads
0x80. -/
theorem controlDReads80 : Obligations.ControlDReads80 := by
  intro s hs i hi
  have hw : IsPureReadWord (encode i) regD := by
    fin_cases hi <;> decide
  exact peekReg_regD s.dev ▸ read_is_pure i regD s hs hw

end Sys2Proof.Machine

namespace Sys2Proof.Machine

open Sys2Proof

/-- Settles O55: the codec's round trip of a valid time, whatever the modes. -/
theorem codecRoundTrip : Obligations.CodecRoundTrip :=
  fun baseYear c d hc => decodeTime_encodeTime baseYear c d hc

/-- Settles O56: each line of the cascade keeps the bounds of a valid time. -/
theorem tickKeepsTimesValid : Obligations.TickKeepsTimesValid :=
  fun baseYear c hc => validTime_tick1 baseYear c hc

/-! The bytes of the codec, 41_codec.md R151 to R157: bit 7 of an hours byte is cut off, set and read apart. -/

theorem toNat_and_7F (x : Byte) : (x &&& 0x7F).toNat = x.toNat % 128 := by
  rw [BitVec.toNat_and]
  exact Nat.and_two_pow_sub_one_eq_mod x.toNat 7

theorem toNat_or_80 (x : Byte) (hx : x.toNat < 128) : (x ||| 0x80).toNat = x.toNat + 128 := by
  have hor := Nat.two_pow_add_eq_or_of_lt (i := 7) hx 1
  rw [BitVec.toNat_or, Nat.or_comm]
  change 2 ^ 7 * 1 ||| x.toNat = _
  omega

theorem getLsbD_7_eq (b : Byte) : b.getLsbD 7 = decide (128 ≤ b.toNat) := BitVec.msb_eq_decide b

theorem encField_bcd_toNat (v : Nat) : (encField v false).toNat = 16 * (v / 10 % 16) + v % 10 := toBCD_toNat v

theorem encField_binary_toNat (v : Nat) : (encField v true).toNat = v % 256 := BitVec.toNat_ofNat v 8

theorem decField_binary (b : Byte) : decField b true = b.toNat := rfl

theorem decField_bcd (b : Byte) : decField b false = 10 * (b.toNat / 16) + b.toNat % 16 := fromBCD_eq b

/-- A number of the 12-hour face fits below bit 7 in both formats. -/
theorem encField_toNat_lt_128 (v : Nat) (dm : Bool) (hv : v ≤ 12) : (encField v dm).toNat < 128 := by
  cases dm
  · rw [encField_bcd_toNat]; omega
  · rw [encField_binary_toNat]; omega

theorem twelveHour_le (h : Nat) : twelveHour h ≤ 12 := by
  unfold twelveHour
  split_ifs <;> omega

theorem encodeHour_24_toNat (h : Nat) (dm : Bool) :
    (encodeHour h dm true).toNat = (encField h dm).toNat % 128 := toNat_and_7F (encField h dm)

theorem encodeHour_12_toNat (h : Nat) (dm : Bool) :
    (encodeHour h dm false).toNat = (encField (twelveHour h) dm).toNat + (if 12 ≤ h then 128 else 0) := by
  have hface : (encField (twelveHour h) dm &&& 0x7F).toNat = (encField (twelveHour h) dm).toNat := by
    rw [toNat_and_7F, Nat.mod_eq_of_lt (encField_toNat_lt_128 _ dm (twelveHour_le h))]
  change ((encField (twelveHour h) dm &&& 0x7F) ||| (if 12 ≤ h then 0x80 else 0x00)).toNat = _
  by_cases hpm : 12 ≤ h
  · rw [if_pos hpm, if_pos hpm, toNat_or_80 _ (by rw [toNat_and_7F]; omega), hface]
  · rw [if_neg hpm, if_neg hpm, Nat.add_zero, ← hface]
    exact congrArg BitVec.toNat BitVec.or_zero

theorem decodeHour_24 (b : Byte) (dm : Bool) : decodeHour b dm true = decField (b &&& 0x7F) dm := rfl

theorem decodeHour_12 (b : Byte) (dm : Bool) :
    decodeHour b dm false = decField (b &&& 0x7F) dm % 12 + (if 128 ≤ b.toNat then 12 else 0) := by
  simp only [decodeHour, getLsbD_7_eq, decide_eq_true_eq, Bool.false_eq_true, if_false]

theorem decField_binary_and_7F (b : Byte) : decField (b &&& 0x7F) true = b.toNat % 128 := toNat_and_7F b

theorem decField_bcd_and_7F (b : Byte) :
    decField (b &&& 0x7F) false = 10 * (b.toNat % 128 / 16) + b.toNat % 16 := by
  rw [decField_bcd, toNat_and_7F]
  omega

theorem encodeTime_sameRegsBut (d : Device) (c : CalTime) : d.SameRegsBut timeRegs (d.encodeTime c) :=
  encodeTime_reg_other d c

theorem encodeTime_sameButRegs (d : Device) (c : CalTime) : d.SameButRegs (d.encodeTime c) :=
  ⟨rfl, rfl, rfl, rfl, rfl, rfl, rfl⟩

/-- Settles O58: the fields, the hours byte each way, and the seven registers; R166's table of the 24 hours is
evaluated. -/
theorem codecBytes : Obligations.CodecBytes := by
  refine ⟨fun v => ⟨encField_bcd_toNat v, encField_binary_toNat v, ?short⟩, ?table,
    fun h binary => ⟨encodeHour_24_toNat h binary, encodeHour_12_toNat h binary⟩,
    fun b => ⟨decField_binary b, decField_bcd b, ?hour24Binary, ?hour24Bcd, ?hour12Binary, ?hour12Bcd⟩, ?registers⟩
  case short =>
    intro hv
    rw [encField_bcd_toNat, encField_binary_toNat]
    omega
  case table => decide
  case hour24Binary => rw [decodeHour_24, decField_binary_and_7F]
  case hour24Bcd => rw [decodeHour_24, decField_bcd_and_7F]
  case hour12Binary => rw [decodeHour_12, decField_binary_and_7F]
  case hour12Bcd => rw [decodeHour_12, decField_bcd_and_7F]
  case registers =>
    rintro d c _ _ rfl rfl
    refine ⟨?_, ?_, ?_, ?_, ?_, ?_, ?_, encodeTime_sameRegsBut d c, encodeTime_sameButRegs d c, rfl⟩ <;>
      exact encodeTime_reg d c _

/-! The calendar against the Gregorian rule and the literal month lengths, 41_codec.md R158 and R159. -/

theorem isLeap_iff (y : Nat) : isLeap y = true ↔ gregorianLeap y := by
  simp [isLeap, gregorianLeap]

theorem daysInMonth_eq (mon y : Nat) :
    daysInMonth mon y =
      if mon = 4 ∨ mon = 6 ∨ mon = 9 ∨ mon = 11 then 30
      else if mon = 2 then (if gregorianLeap y then 29 else 28) else 31 := by
  simp only [daysInMonth, isLeap_iff]

theorem monthLengths_length (y : Nat) : (monthLengths y).length = 12 := rfl

theorem monthLengths_getElem (y k : Nat) (hk : k < (monthLengths y).length) :
    (monthLengths y)[k] = daysInMonth (k + 1) y := by
  rw [daysInMonth_eq]
  rw [monthLengths_length] at hk
  interval_cases k <;> rfl

theorem sum_take_monthLengths (y mon : Nat) (hlo : 1 ≤ mon) (hhi : mon ≤ 12) :
    ((monthLengths y).take mon).sum = ((monthLengths y).take (mon - 1)).sum + daysInMonth mon y := by
  obtain ⟨k, rfl⟩ := Nat.exists_eq_add_of_le' hlo
  rw [List.sum_take_succ _ k (by rwa [monthLengths_length]), monthLengths_getElem, Nat.add_sub_cancel]

/-- The days from 1 January of year offset 0 to a date: the day part of `secondsSinceBase`. -/
def dayCount (baseYear year mon mday : Nat) : Nat :=
  ((List.range year).map (fun k => (monthLengths (baseYear + k)).sum)).sum +
    ((monthLengths (baseYear + year)).take (mon - 1)).sum + (mday - 1)

theorem secondsSinceBase_eq (baseYear : Nat) (c : CalTime) :
    secondsSinceBase baseYear c =
      ((dayCount baseYear c.year c.mon c.mday * 24 + c.hour) * 60 + c.min) * 60 + c.sec := rfl

theorem dayCount_next_day (baseYear year mon mday : Nat) (h : 1 ≤ mday) :
    dayCount baseYear year mon (mday + 1) = dayCount baseYear year mon mday + 1 := by
  unfold dayCount
  omega

theorem dayCount_next_month (baseYear year mon : Nat) (hlo : 1 ≤ mon) (hhi : mon ≤ 12) :
    dayCount baseYear year (mon + 1) 1 = dayCount baseYear year mon (daysInMonth mon (baseYear + year)) + 1 := by
  have hdays := (daysInMonth_bounds mon (baseYear + year)).1
  have hsum := sum_take_monthLengths (baseYear + year) mon hlo hhi
  simp only [dayCount, Nat.add_sub_cancel]
  omega

/-- The twelve months make up the year: its last day is the day before a thirteenth month would begin. -/
theorem dayCount_next_year (baseYear year : Nat) :
    dayCount baseYear (year + 1) 1 1 = dayCount baseYear year 12 31 + 1 := by
  have hwhole : (monthLengths (baseYear + year)).take 12 = monthLengths (baseYear + year) :=
    List.take_of_length_le le_rfl
  have hthirteenth : dayCount baseYear (year + 1) 1 1 = dayCount baseYear year (12 + 1) 1 := by
    simp [dayCount, List.range_succ, hwhole]
  rw [hthirteenth]
  exact dayCount_next_month baseYear year 12 (by omega) le_rfl

theorem dayCount_base (baseYear : Nat) : dayCount baseYear 0 1 1 = 0 := rfl

/-! The increment, 41_codec.md R160. -/

/-- The carries of the cascade are the conjunctions of the limits reached so far, for every record. -/
theorem tick1_eq_cascade (baseYear : Nat) (c : CalTime) :
    let newMinute := decide (59 ≤ c.sec)
    let newHour := newMinute && decide (59 ≤ c.min)
    let newDay := newHour && decide (23 ≤ c.hour)
    let newMonth := newDay && decide (daysInMonth c.mon (baseYear + c.year) ≤ c.mday)
    let newYear := newMonth && decide (12 ≤ c.mon)
    tick1 baseYear c =
      { sec := if newMinute then 0 else c.sec + 1
        min := if newHour then 0 else if newMinute then c.min + 1 else c.min
        hour := if newDay then 0 else if newHour then c.hour + 1 else c.hour
        dow := if newDay then (if 7 ≤ c.dow then 1 else c.dow + 1) else c.dow
        mday := if newMonth then 1 else if newDay then c.mday + 1 else c.mday
        mon := if newYear then 1 else if newMonth then c.mon + 1 else c.mon
        year := if newYear then (if 99 ≤ c.year then 0 else c.year + 1) else c.year } := by
  simp only [tick1, ← Nat.not_le, Nat.reduceLeDiff]
  by_cases hsec : 59 ≤ c.sec
  case neg => simp [hsec]
  by_cases hmin : 59 ≤ c.min
  case neg => simp [hsec, hmin]
  by_cases hhour : 23 ≤ c.hour
  case neg => simp [hsec, hmin, hhour]
  by_cases hmday : daysInMonth c.mon (baseYear + c.year) ≤ c.mday
  case neg => simp [hsec, hmin, hhour, hmday]
  by_cases hmon : 12 ≤ c.mon <;> simp [hsec, hmin, hhour, hmday, hmon]

/-- The day counter runs freely and steps at midnight alone, R165. -/
theorem tick1_dow (baseYear : Nat) (c : CalTime) (hc : validTime baseYear c = true) :
    (tick1 baseYear c).dow = if c.sec = 59 ∧ c.min = 59 ∧ c.hour = 23 then c.dow % 7 + 1 else c.dow := by
  obtain ⟨hsec, hmin, hhour, ⟨_, hdow⟩, _⟩ := (validTime_iff baseYear c).1 hc
  simp only [tick1_eq_cascade, Bool.and_eq_true, decide_eq_true_eq]
  split_ifs <;> omega

/-- The wrap of the last second of year 99, R163. -/
theorem secondsSinceBase_tick1_of_last (baseYear : Nat) (c : CalTime)
    (hlast : c.sec = 59 ∧ c.min = 59 ∧ c.hour = 23 ∧ c.mday = 31 ∧ c.mon = 12 ∧ c.year = 99) :
    secondsSinceBase baseYear (tick1 baseYear c) = 0 := by
  obtain ⟨hsec, hmin, hhour, hmday, hmon, hyear⟩ := hlast
  have hdays : daysInMonth 12 (baseYear + 99) = 31 := rfl
  simp [tick1_eq_cascade, secondsSinceBase_eq, dayCount_base, hsec, hmin, hhour, hmday, hmon, hyear, hdays]

theorem secondsSinceBase_tick1_of_not_last (baseYear : Nat) (c : CalTime) (hc : validTime baseYear c = true)
    (hlast : ¬(c.sec = 59 ∧ c.min = 59 ∧ c.hour = 23 ∧ c.mday = 31 ∧ c.mon = 12 ∧ c.year = 99)) :
    secondsSinceBase baseYear (tick1 baseYear c) = secondsSinceBase baseYear c + 1 := by
  obtain ⟨hsec, hmin, hhour, _, ⟨hmon1, hmon⟩, ⟨hmday1, hmday⟩, hyear⟩ := (validTime_iff baseYear c).1 hc
  have nextDay := dayCount_next_day baseYear c.year c.mon c.mday hmday1
  have nextMonth := dayCount_next_month baseYear c.year c.mon hmon1 hmon
  have nextYear := dayCount_next_year baseYear c.year
  unfold tick1
  split
  case isTrue => simp only [secondsSinceBase_eq]; omega
  split
  case isTrue => simp only [secondsSinceBase_eq]; omega
  split
  case isTrue => simp only [secondsSinceBase_eq]; omega
  dsimp only
  split
  case isTrue => simp only [secondsSinceBase_eq]; omega
  case isFalse =>
    have hend : c.mday = daysInMonth c.mon (baseYear + c.year) := by omega
    rw [← hend] at nextMonth
    split
    case isTrue => simp only [secondsSinceBase_eq]; omega
    case isFalse =>
      have hdec : c.mon = 12 := by omega
      have h31 : c.mday = 31 := by rw [hend, hdec]; rfl
      have hmore : ¬ 99 ≤ c.year := by omega
      simp only [secondsSinceBase_eq, hdec, h31, if_neg hmore]; omega

/-- Settles O59: a carry out of a month is the next month's first day, so every line of the cascade adds one second; the
second part is the cascade with the length of the month written out. -/
theorem tickIsOneSecond : Obligations.TickIsOneSecond := by
  refine ⟨fun baseYear c hc => ⟨?count, tick1_dow baseYear c hc⟩, fun baseYear c => ?cascade⟩
  case count =>
    split
    case isTrue hlast => exact secondsSinceBase_tick1_of_last baseYear c hlast
    case isFalse hlast => exact secondsSinceBase_tick1_of_not_last baseYear c hc hlast
  case cascade =>
    rw [← daysInMonth_eq]
    exact tick1_eq_cascade baseYear c

end Sys2Proof.Machine

namespace Sys2Proof.Machine

open Sys2Proof

/-! The rate table against the byte written, 30_encoding.md R100: bit 7 and the divider bits play no part. -/

theorem rateSelect_toNat (v : Byte) : (rateSelect v).toNat = (v &&& 0x0F).toNat := by
  rw [rateSelect, BitVec.extractLsb'_toNat, BitVec.toNat_and, Nat.shiftRight_zero]
  exact (Nat.and_two_pow_sub_one_eq_mod v.toNat 4).symm

theorem rateSelect_eq_zero (v : Byte) : rateSelect v = 0 ↔ v &&& 0x0F = 0 := by
  rw [← BitVec.toNat_inj, rateSelect_toNat, ← BitVec.toNat_inj]
  rfl

/-- Only rate code 0 stops the timer. -/
theorem rateTable_eq_zero (rs : BitVec 4) : rateTable rs = 0 ↔ rs = 0 := by revert rs; decide

/-! A write of control register A, 42_periodic.md R180. -/

theorem writeCtrlA_line (v : Byte) (now : Nat) (d : Device) : (d.writeCtrlA v now).line = d.line :=
  setReg_line_of_ne d regA (v &&& 0x7F) (by decide) (by decide)

theorem writeCtrlA_sameRegsBut (v : Byte) (now : Nat) (d : Device) : d.SameRegsBut [regA] (d.writeCtrlA v now) :=
  setReg_sameRegsBut d regA (v &&& 0x7F)

/-- Settles O19: both instructions have a write word of control register A, and the deadline there is that of the rate
table read at the low four bits of the byte. -/
theorem controlAWriteRestartsThePeriodicTimer : Obligations.ControlAWriteRestartsThePeriodicTimer := by
  intro v s hs i hi
  have hw : IsWriteWord (encode i) regA v := by
    fin_cases hi
    · exact .inl rfl
    · exact .inr rfl
  have hx := exec_of_isWriteWord i regA v s hs hw
  rw [writeReg_regA] at hx
  obtain ⟨t, ht, hdev, hedge, hrep⟩ := completes_without_edge i s _ none hx (writeCtrlA_line v s.time s.dev)
  refine ⟨t, ht, ?stored, ?frame, ?deadline, ?_, ?_, ?_, ?_, ?_, ?_, hedge, hrep⟩ <;> rw [hdev]
  case stored => rw [writeCtrlA_reg, if_pos rfl]
  case frame => exact writeCtrlA_sameRegsBut v s.time s.dev
  case deadline =>
    simp only [Device.writeCtrlA_nextPeriodicDeadline, armPeriodic, rateTable_eq_zero, rateSelect_eq_zero]
    rw [rateTable, rateSelect_toNat]
  all_goals rfl

/-! The count of a periodic fire, 42_periodic.md R184: it reaches the first instant of the grid after `now`. -/

theorem lt_grid_of_elapsedPeriods (now dl p : Nat) (hp : p ≠ 0) : now < dl + elapsedPeriods now dl p * p := by
  have hlag := Nat.lt_mul_div_succ (now - dl) (Nat.pos_of_ne_zero hp)
  rw [elapsedPeriods, Nat.mul_comm]
  omega

theorem grid_of_elapsedPeriods_le (now dl p : Nat) (hdue : dl ≤ now) :
    dl + (elapsedPeriods now dl p - 1) * p ≤ now := by
  have hlag := Nat.div_mul_le_self (now - dl) p
  rw [elapsedPeriods, Nat.add_sub_cancel]
  omega

/-! The line when PF is set, 10_state.md R39: it rises exactly when PIE is set and it was low. -/

theorem line_of_pf_set (d e : Device) (hC : e.reg regC = d.reg regC ||| 0x40) (hB : e.reg regB = d.reg regB) :
    e.line = (d.line || d.pie) := by
  rw [line_eq_or e, line_eq_or d]
  simp only [Device.pf, Device.af, Device.uf, Device.pie, Device.aie, Device.uie, hC, hB, BitVec.getLsbD_or]
  cases (d.reg regB).getLsbD 6 <;> simp

theorem edgeOf_raise (before raise : Bool) :
    edgeOf before (before || raise) = if raise && !before then some .assert else none := by
  cases before <;> cases raise <;> rfl

theorem firePeriodic_line (c : Config) (now dl : Nat) (d : Device) :
    (d.firePeriodic c now dl).line = (d.line || d.pie) :=
  line_of_pf_set d _ (by rw [firePeriodic_reg, if_pos rfl]) (by rw [firePeriodic_reg, if_neg (by decide)])

theorem firePeriodic_sameRegsBut (c : Config) (now dl : Nat) (d : Device) :
    d.SameRegsBut [regC] (d.firePeriodic c now dl) := fun j hj => by
  rw [firePeriodic_reg, if_neg (List.ne_of_not_mem_cons hj).symm]

/-- Settles O34: the fire of an admitted and due EV_PERIODIC completes; the count's two bounds put the new deadline on the
grid, and the line can only rise. -/
theorem periodicFireCountsElapsedPeriods : Obligations.PeriodicFireCountsElapsedPeriods := by
  intro s dl hs harmed hdue hperiod
  have hx : exec .evPeriodic s = .next (completeNow s (s.dev.firePeriodic s.config s.time dl) none) :=
    (execEvPeriodic_next s _).2 ⟨hs, dl, harmed, hdue, rfl⟩
  refine ⟨_, elapsedPeriods s.time dl s.dev.periodicPeriod, hx, rfl, ?deadline,
    lt_grid_of_elapsedPeriods s.time dl _ hperiod, grid_of_elapsedPeriods_le s.time dl _ hdue, ?status,
    firePeriodic_sameRegsBut s.config s.time dl s.dev, firePeriodic_coalescedCount s.config s.time dl s.dev, ?edge,
    ?_, ?_, ?_, ?_, ?_, completeNow_reports s _ none⟩
  case edge => rw [completeNow_edge, firePeriodic_line, edgeOf_raise]
  case status => rw [completeNow_dev, firePeriodic_reg, if_pos rfl]
  all_goals rw [completeNow_dev, firePeriodic_fields]

end Sys2Proof.Machine

namespace Sys2Proof.Machine

open Sys2Proof

/-! The two status reads, 43_update_alarm.md R203 and R204. -/

theorem peekReg_regC (d : Device) : d.peekReg regC = d.statusByte := by
  rcases peekReg_cases regC d with ⟨h, _, _⟩ | ⟨_, e⟩ | ⟨h, _⟩
  · exact absurd rfl h
  · exact e
  · exact absurd h (by decide)

theorem exec_datRdRegC_next (s t : State) :
    exec .datRdRegC s = .next t ↔
      s.Ready ∧ completeNow s s.dev.readAndClearC (some s.dev.statusByte) = t := by
  change datRd regC s = .next t ↔ _
  rw [datRd_next]
  simp only [ne_eq, not_true_eq_false, false_and, or_false, true_and]

theorem line_of_no_flags (d : Device) (h : d.reg regC = 0x00) : d.line = false := by
  rw [line_eq_or, Device.pf, Device.af, Device.uf, h]
  rfl

theorem readAndClearC_status (d : Device) : d.readAndClearC.reg regC = 0x00 := by
  rw [readAndClearC_reg, if_pos rfl]

theorem readAndClearC_line (d : Device) : d.readAndClearC.line = false :=
  line_of_no_flags _ (readAndClearC_status d)

theorem readAndClearC_sameRegsBut (d : Device) : d.SameRegsBut [regC] d.readAndClearC := fun j hj => by
  rw [readAndClearC_reg, if_neg (List.ne_of_not_mem_cons hj).symm]

theorem edgeOf_lower (before : Bool) : edgeOf before false = if before then some .deassert else none := by
  cases before <;> rfl

/-- Settles O23: GET_BYTE at 0x0C is a pure read, and the semantic decoder reads the status byte there. -/
theorem getByteOfStatusClearsNothing : Obligations.GetByteOfStatusClearsNothing := by
  intro s hs
  obtain ⟨t, hx, hdev, hedge, hrep⟩ := read_is_pure .getByteRegC regC s hs (.inr rfl)
  rw [peekReg_regC] at hrep
  exact ⟨t, hx, hdev, hedge, hrep⟩

/-- Settles O24: the read clears the flags, so the line is low after it, and the acknowledgment takes one from a
backlog. -/
theorem statusReadReturnsAndClearsTheFlags : Obligations.StatusReadReturnsAndClearsTheFlags := by
  intro s hs
  refine ⟨_, (exec_datRdRegC_next s _).2 ⟨hs, rfl⟩, readAndClearC_status s.dev, readAndClearC_sameRegsBut s.dev,
    ?count, ?pending, readAndClearC_line s.dev, ?edge, ?_, ?_, ?_, ?_, ?_, completeNow_reports s _ _⟩
  case edge => rw [completeNow_edge, readAndClearC_line, edgeOf_lower]
  case pending => rw [completeNow_dev, readAndClearC_fields, Bool.or_comm]
  all_goals rw [completeNow_dev, readAndClearC_fields]

/-- Settles O25: the first read leaves no flag and the line low, which the second finds. -/
theorem secondStatusReadReturnsZero : Obligations.SecondStatusReadReturnsZero := by
  intro s t u hfirst hdev hu
  obtain ⟨_, rfl⟩ := (exec_datRdRegC_next s t).1 hfirst
  have hflags : u.dev.reg regC = 0x00 := by rw [hdev]; exact readAndClearC_status s.dev
  have hline : u.dev.line = false := line_of_no_flags u.dev hflags
  obtain ⟨w, hx, hclear, _, _, _, _, hedge, _, _, _, _, _, ⟨hret, _⟩, _⟩ := statusReadReturnsAndClearsTheFlags u hu
  refine ⟨w, hx, ?ret, ?edge, hclear⟩
  case ret => rw [hret, hline, hflags]; rfl
  case edge => rw [hedge, hline]; rfl

/-! The flags along an instruction, 10_state.md R37. -/

/-- A well-formed instruction with the word of a data-port read at 0x0C is DAT_RD.REG_C. -/
theorem eq_datRdRegC (i : Instr) (hwf : i.wellFormed = true) (he : encode i = mkWord 0x3 regC 0x00) :
    i = .datRdRegC := by
  have hrow := eq_decodeDatRd i hwf (by simp [he])
  rw [he, idxField_mkWord] at hrow
  exact hrow

/-- An effect other than the status read ors flags into the status register. -/
theorem Effect.status_gains {s : State} {i : Instr} {d : Device} (he : Effect s i d) (hwf : i.wellFormed = true)
    (hread : i ≠ .datRdRegC) : ∃ m : Byte, d.reg regC = s.dev.reg regC ||| m := by
  obtain ⟨hword, _⟩ | ⟨m, _, hor⟩ := he.status_cases
  · exact absurd (eq_datRdRegC i hwf hword) hread
  · exact ⟨m, hor⟩

/-- Settles O48: no effect but the status read takes a flag from the status register. -/
theorem flagsAreClearedOnlyByTheStatusRead : Obligations.FlagsAreClearedOnlyByTheStatusRead := by
  intro i s t hwf hinit hread h
  obtain ⟨he, _⟩ := exec_next i s t hinit h
  obtain ⟨m, hor⟩ := he.status_gains hwf hread
  have kept : ∀ b, (s.dev.reg regC).getLsbD b = true → (t.dev.reg regC).getLsbD b = true := by
    intro b hb
    rw [hor, BitVec.getLsbD_or, hb, Bool.true_or]
  exact ⟨kept 6, kept 5, kept 4⟩

/-! The update fire: the alarm comparison R202, its flags, its frame and the line after it R201. -/

/-- Settles O37: the deadline counts what is missing to a second, or stands at the anchor when none is missing. -/
theorem enabledUpdateOwesASecond : Obligations.EnabledUpdateOwesASecond :=
  fun c d now hdue => oneSec_le_owed c d now hdue

theorem fieldPasses_iff (t a : Byte) : fieldPasses t a = true ↔ 0xC0 ≤ a ∨ a = t := by
  simp [fieldPasses]

theorem alarmMatches_iff (d : Device) :
    d.alarmMatches = true ↔
      ∀ p ∈ [(regSeconds, regSecondsAlarm), (regMinutes, regMinutesAlarm), (regHours, regHoursAlarm)],
        0xC0 ≤ d.reg p.2 ∨ d.reg p.2 = d.reg p.1 := by
  simp only [Device.alarmMatches, Bool.and_eq_true, fieldPasses_iff, and_assoc, List.forall_mem_cons,
    List.not_mem_nil, false_imp_iff, implies_true, and_true]

theorem fireUpdate_status (c : Config) (now : Nat) (d : Device) :
    (d.fireUpdate c now).reg regC =
      d.reg regC ||| 0x10 ||| (if (d.fireUpdate c now).alarmMatches then 0x20 else 0x00) := by
  rw [fireUpdate_reg, if_pos rfl]

theorem fireUpdate_af (c : Config) (now : Nat) (d : Device) :
    (d.fireUpdate c now).af = (d.af || (d.fireUpdate c now).alarmMatches) := by
  rw [Device.af, fireUpdate_status, BitVec.getLsbD_or, BitVec.getLsbD_or]
  cases (d.fireUpdate c now).alarmMatches <;> simp [Device.af]

theorem fireUpdate_uf (c : Config) (now : Nat) (d : Device) : (d.fireUpdate c now).uf = true := by
  rw [Device.uf, fireUpdate_status, BitVec.getLsbD_or, BitVec.getLsbD_or]
  simp

/-- Settles O42: the fire ors the alarm comparison into AF, and sets UF. -/
theorem alarmFlagFollowsTheComparison : Obligations.AlarmFlagFollowsTheComparison := by
  intro s t h
  obtain ⟨_, _, rfl⟩ := (execEvUpdate_next s t).1 h
  rw [completeNow_dev, fireUpdate_af, Bool.or_eq_true, alarmMatches_iff]
  exact ⟨Iff.rfl, fireUpdate_uf s.config s.time s.dev⟩

theorem fireUpdate_timeBase (c : Config) (now : Nat) (d : Device) :
    (d.fireUpdate c now).timeBase =
      { ref := now, off := d.owed now - secondsToApply c (d.owed now) * oneSec } := by
  rw [fireUpdate_fields]

/-- Away from the status register the update fire leaves the encoded new time. -/
theorem fireUpdate_reg_of_ne (c : Config) (now : Nat) (d : Device) (j : Byte) (hj : j ≠ regC) :
    (d.fireUpdate c now).reg j =
      (d.encodeTime (addSeconds c.baseYear d.decodeTime (secondsToApply c (d.owed now)))).reg j := by
  rw [fireUpdate_reg, if_neg hj.symm]

/-- The registers the update fire writes, 41_codec.md R157; the advanced time is a variable, so that no register is
checked by evaluating it. -/
theorem fireUpdate_timeRegisters (c : Config) (now : Nat) (d : Device) (advanced : CalTime)
    (hadv : addSeconds c.baseYear d.decodeTime (secondsToApply c (d.owed now)) = advanced) :
    (d.fireUpdate c now).reg regSeconds = encField advanced.sec d.dm ∧
    (d.fireUpdate c now).reg regMinutes = encField advanced.min d.dm ∧
    (d.fireUpdate c now).reg regHours = encodeHour advanced.hour d.dm d.h24 ∧
    (d.fireUpdate c now).reg regDayOfWeek = encField advanced.dow d.dm ∧
    (d.fireUpdate c now).reg regDayOfMonth = encField advanced.mday d.dm ∧
    (d.fireUpdate c now).reg regMonth = encField advanced.mon d.dm ∧
    (d.fireUpdate c now).reg regYear = encField advanced.year d.dm := by
  have written : ∀ j ∈ timeRegs, (d.fireUpdate c now).reg j = (d.encodeTime advanced).reg j := fun j hj => by
    rw [fireUpdate_reg_of_ne c now d j (timeRegs_ne_regC j hj), hadv]
  refine ⟨?_, ?_, ?_, ?_, ?_, ?_, ?_⟩ <;> exact (written _ (by decide)).trans (encodeTime_reg d advanced _)

theorem fireUpdate_sameRegsBut (c : Config) (now : Nat) (d : Device) :
    d.SameRegsBut (timeRegs ++ [regC]) (d.fireUpdate c now) := fun j hj => by
  rw [List.mem_append, List.mem_singleton, not_or] at hj
  obtain ⟨htime, hC⟩ := hj
  rw [fireUpdate_reg_of_ne c now d j hC, encodeTime_reg_other d _ j htime]

/-- Flags added under the same enables never lower the line, 10_state.md R39. -/
theorem line_of_flags_added (d e : Device) (m : Byte) (hC : e.reg regC = d.reg regC ||| m)
    (hB : e.reg regB = d.reg regB) (h : d.line = true) : e.line = true := by
  rw [line_eq_or] at h ⊢
  simp only [Device.pf, Device.af, Device.uf, Device.pie, Device.aie, Device.uie, hC, hB, BitVec.getLsbD_or,
    Bool.or_eq_true, Bool.and_eq_true] at h ⊢
  tauto

theorem fireUpdate_line_kept (c : Config) (now : Nat) (d : Device) (h : d.line = true) :
    (d.fireUpdate c now).line = true :=
  line_of_flags_added d _ _ ((fireUpdate_status c now d).trans (BitVec.or_assoc _ _ _))
    (fireUpdate_sameRegsBut c now d regB (by decide)) h

theorem edgeOf_of_line_kept (before after : Bool) (h : before = true → after = true) :
    edgeOf before after = if after && !before then some .assert else none := by
  revert h
  cases before <;> cases after <;> decide

/-- Settles O35: the fire of an admitted and due EV_UPDATE completes; the codec writes the advanced time, and the line
can only rise. -/
theorem updateFireAdvancesTheClock : Obligations.UpdateFireAdvancesTheClock := by
  intro s hs hdue
  have hx : exec .evUpdate s = .next (completeNow s (s.dev.fireUpdate s.config s.time) none) :=
    (execEvUpdate_next s _).2 ⟨hs, hdue, rfl⟩
  obtain ⟨hsec, hmin, hhour, hdow, hmday, hmon, hyear⟩ :=
    fireUpdate_timeRegisters s.config s.time s.dev _ rfl
  refine ⟨_, s.dev.owed s.time, _, _, hx, rfl, rfl, rfl, hsec, hmin, hdow, hmday, hmon, hyear, hhour,
    ?status, ?frame, ?anchor, ?edge, ?_, ?_, ?_, ?_, ?_, ?_, completeNow_reports s _ none⟩
  case status => rw [completeNow_dev, fireUpdate_status]
  case frame =>
    intro j hj
    exact fireUpdate_sameRegsBut s.config s.time s.dev j (by simpa [or_assoc] using hj)
  case anchor => exact fireUpdate_timeBase s.config s.time s.dev
  case edge => rw [completeNow_edge]; exact edgeOf_of_line_kept _ _ (fireUpdate_line_kept s.config s.time s.dev)
  all_goals rw [completeNow_dev, fireUpdate_fields]

end Sys2Proof.Machine

namespace Sys2Proof.Machine

open Sys2Proof

/-! The reinjection fire, 44_coalescing.md R224. -/

theorem fireReinject_coalescedCount (c : Config) (d : Device) :
    (d.fireReinject c).coalescedCount =
      if d.pf then min c.coalesceMax (d.coalescedCount + 1) else d.coalescedCount := by
  rcases fireReinject_fields c d with ⟨h, e⟩ | ⟨h, e⟩ <;> rw [e, h] <;> rfl

theorem fireReinject_sameRegsBut (c : Config) (d : Device) : d.SameRegsBut [regC] (d.fireReinject c) := fun j hj => by
  rw [fireReinject_reg, if_neg (List.ne_of_not_mem_cons hj).symm]

theorem fireReinject_line (c : Config) (d : Device) : (d.fireReinject c).line = (d.line || d.pie) :=
  line_of_pf_set d _ (by rw [fireReinject_reg, if_pos rfl]) (fireReinject_sameRegsBut c d regB (by decide))

/-- A pending and enabled periodic flag holds the line, 10_state.md R39. -/
theorem line_of_pf_of_pie (d : Device) (hpf : d.pf = true) (hpie : d.pie = true) : d.line = true := by
  rw [line_eq_or, hpf, hpie]
  rfl

/-- Setting PF can raise a low line only if PF was clear: with PF and PIE set the line is high already. -/
theorem raise_requires_pf_clear (d : Device) : (!d.pf && d.pie && !d.line) = (d.pie && !d.line) := by
  cases hpf : d.pf
  · rfl
  · cases hpie : d.pie
    · rfl
    · rw [line_of_pf_of_pie d hpf hpie]
      rfl

/-- Settles O36: the fire of an admitted and pending EV_REINJECT completes; PF is set after it in either case, and the
line can only rise. -/
theorem reinjectionFireRedeliversOneTick : Obligations.ReinjectionFireRedeliversOneTick := by
  intro s hs hpending
  have hx : exec .evReinject s = .next (completeNow s (s.dev.fireReinject s.config) none) :=
    (execEvReinject_next s _).2 ⟨hs, hpending, rfl⟩
  refine ⟨_, hx, rfl, ?status, fireReinject_sameRegsBut s.config s.dev, fireReinject_coalescedCount s.config s.dev,
    ?edge, ?_, ?_, ?_, ?_, ?_, completeNow_reports s _ none⟩
  case status => rw [completeNow_dev, fireReinject_reg, if_pos rfl]
  case edge => rw [completeNow_edge, fireReinject_line, edgeOf_raise, raise_requires_pf_clear]
  all_goals rw [completeNow_dev, fireReinject_frame]

/-! One periodic edge outstanding, 44_coalescing.md R227. -/

/-- Control register B moves only under its two write rows, 40_port_access.md R128. -/
theorem Effect.regB_eq {s : State} {i : Instr} {d : Device} (he : Effect s i d) (hwf : i.wellFormed = true)
    (hrow : ∀ v, i ≠ .datWrRegB v ∧ i ≠ .setByteRegB v) : d.reg regB = s.dev.reg regB := by
  obtain ⟨v, hword, _⟩ | ⟨_, hmem⟩ | hreg | hsame := he.reg_cases regB
  · exact absurd hword (encode_ne_write i regB hwf hrow v)
  · exact absurd hmem (by decide)
  · exact absurd hreg (by decide)
  · exact hsame

/-- The edge of an instruction other than INIT compares the line before and after it, 40_port_access.md R133. -/
theorem exec_edge (i : Instr) (s t : State) (hi : i ≠ .init) (h : exec i s = .next t) :
    t.edge = edgeOf s.dev.line t.dev.line := by
  obtain ⟨_, ⟨ret, last, ht, _⟩, _⟩ := exec_next i s t hi h
  rw [ht, complete_edge, complete_dev]

/-- A pending flag stays and the line is compared when a write replaces the enables, 40_port_access.md R128 and R133. -/
theorem exec_regB_write_of_pf (v : Byte) (s : State) (hs : s.Ready) (hpf : s.dev.pf = true) (i : Instr)
    (hi : i ∈ ([.datWrRegB v, .setByteRegB v] : List Instr)) :
    ∃ t, exec i s = .next t ∧ t.dev.pf = true ∧ t.dev.pie = v.getLsbD 6 ∧
      t.edge = edgeOf s.dev.line t.dev.line := by
  obtain ⟨t, hx, hregB, hframe, _, _, _, _, ⟨_, hedge, _⟩, _⟩ := controlBWriteMovesTheLineAtOnce v s hs i hi
  refine ⟨t, hx, ?pf, ?pie, hedge⟩
  case pf => rw [Device.pf, hframe regC (by decide)]; exact hpf
  case pie => rw [Device.pie, hregB]

/-- Settles O44: PF and PIE set hold the line high, so an instruction that keeps both gives no edge; a write of control
register B keeps PF, and the line after it is high when it sets PIE. -/
theorem onePeriodicEdgeOutstanding : Obligations.OnePeriodicEdgeOutstanding := by
  refine ⟨?other, ?enables⟩
  case other =>
    intro i s t hwf hinit hread hrow h hpf hpie
    obtain ⟨he, _⟩ := exec_next i s t hinit h
    obtain ⟨hkept, _⟩ := flagsAreClearedOnlyByTheStatusRead i s t hwf hinit hread h
    have hpf' : t.dev.pf = true := hkept hpf
    have hpie' : t.dev.pie = true := by rw [Device.pie, he.regB_eq hwf hrow]; exact hpie
    refine ⟨?_, hpf', hpie'⟩
    rw [exec_edge i s t hinit h, line_of_pf_of_pie s.dev hpf hpie, line_of_pf_of_pie t.dev hpf' hpie', edgeOf_self]
  case enables =>
    intro v s hs hpf i hi
    obtain ⟨t, hx, hpf', hpie', hedge⟩ := exec_regB_write_of_pf v s hs hpf i hi
    have hhigh (hv : v.getLsbD 6 = true) : t.dev.line = true := line_of_pf_of_pie t.dev hpf' (hpie'.trans hv)
    refine ⟨t, hx, hpf', hpie', fun hpie => ?held, fun hlow hv => ?raised⟩
    case held =>
      have hline := line_of_pf_of_pie s.dev hpf hpie
      rw [hedge, Ne, edgeOf_eq_assert, hline]
      exact ⟨by simp, fun hv => by rw [hhigh hv, edgeOf_self]⟩
    case raised =>
      rw [hedge, edgeOf_eq_assert]
      exact ⟨hlow, hhigh hv⟩

/-! The writers of the backlog, 44_coalescing.md R225 and R226. -/

/-- An effect of none of R226's operations leaves the count, and the pending reinjection too unless it is TEARDOWN
(47_platform_ops.md R283). -/
theorem Effect.backlog_eq {s : State} {i : Instr} {d : Device} (he : Effect s i d) (hwf : i.wellFormed = true)
    (hi : i ∉ ([.init, .datRdRegC, .evPeriodic, .evReinject, .rstReinj] : List Instr)) :
    d.coalescedCount = s.dev.coalescedCount ∧ (i ≠ .teardown → d.reinjectPending = s.dev.reinjectPending) := by
  simp only [List.mem_cons, List.not_mem_nil, or_false, not_or] at hi
  obtain ⟨_, hread, hperiodic, hreinject, hrst⟩ := hi
  cases he with
  | statusRead word dev => exact absurd (eq_datRdRegC i hwf word) hread
  | periodic instr dl armed due dev => exact absurd instr hperiodic
  | reinject instr pending dev => exact absurd instr hreinject
  | dropBacklog instr dev => exact absurd instr hrst
  | write idx v word dev => rw [dev, writeReg_fields]; exact ⟨rfl, fun _ => rfl⟩
  | update instr due dev => rw [dev, fireUpdate_fields]; exact ⟨rfl, fun _ => rfl⟩
  | teardown instr live dev => rw [dev]; exact ⟨rfl, absurd instr⟩
  | pure _ dev | select _ _ dev | reanchor _ dev | suspend _ dev | resume _ _ dev =>
    rw [dev]; exact ⟨rfl, fun _ => rfl⟩

/-- Settles O50: the effects beside R226's leave the backlog, and the periodic fire's frame holds the pending
reinjection. -/
theorem backlogWriters : Obligations.BacklogWriters := by
  refine ⟨fun i s t hwf hi h => ?_, fun s t h => ?_⟩
  · obtain ⟨he, _⟩ := exec_next i s t (List.ne_of_not_mem_cons hi) h
    exact he.backlog_eq hwf hi
  · obtain ⟨_, dl, _, _, rfl⟩ := (execEvPeriodic_next s t).1 h
    rw [completeNow_dev, firePeriodic_fields]

/-- Settles O26: the backlog is no part of the line, so dropping it gives no edge. -/
theorem reinjectionResetDropsTheBacklog : Obligations.ReinjectionResetDropsTheBacklog := fun s hs =>
  completes_without_edge .rstReinj s { s.dev with coalescedCount := 0, reinjectPending := false } none
    (whenRunning_ready s _ hs) rfl

end Sys2Proof.Machine

namespace Sys2Proof.Machine

open Sys2Proof

/-! The three branches of the lost-tick choice, 45_lost_tick.md R241. -/

theorem secondsToApply_of_tolerated (c : Config) (o : Nat) (h : o - oneSec ≤ oneSec) : secondsToApply c o = 1 :=
  if_pos h

theorem secondsToApply_discard (c : Config) (o : Nat) (h : oneSec < o - oneSec) (hp : c.lostTickPolicy = .discard) :
    secondsToApply c o = o / oneSec := by
  rw [secondsToApply, if_neg h.not_ge, hp]

theorem secondsToApply_slew (c : Config) (o : Nat) (h : oneSec < o - oneSec) (hp : c.lostTickPolicy = .slew) :
    secondsToApply c o = 1 + ((o / oneSec - 1) - c.slewMaxBacklog) := by
  rw [secondsToApply, if_neg h.not_ge, hp]

/-- Under Slew a backlog within its bound is replayed second by second, 45_lost_tick.md R243. -/
theorem secondsToApply_of_backlog (c : Config) (o : Nat) (hp : c.lostTickPolicy = .slew)
    (h : o / oneSec - 1 ≤ c.slewMaxBacklog) : secondsToApply c o = 1 := by
  rcases Nat.lt_or_ge oneSec (o - oneSec) with hlate | htolerated
  · rw [secondsToApply_slew c o hlate hp, Nat.sub_eq_zero_of_le h]
  · exact secondsToApply_of_tolerated c o htolerated

/-- Settles O38: the bounds on the seconds applied, and the three branches of the choice. -/
theorem secondsAppliedHaveElapsed : Obligations.SecondsAppliedHaveElapsed := by
  intro c o ho
  obtain ⟨hone, hmost⟩ := secondsToApply_bounds c o ho
  exact ⟨hone, (Nat.le_div_iff_mul_le (by decide)).2 hmost, secondsToApply_of_tolerated c o,
    secondsToApply_discard c o, secondsToApply_slew c o⟩

/-- Settles O39: the whole seconds are all applied under Discard, and those beyond the bound and one more under Slew. -/
theorem lateFireLeavesABoundedDebt : Obligations.LateFireLeavesABoundedDebt := by
  intro s t h howed
  obtain ⟨_, _, rfl⟩ := (execEvUpdate_next s t).1 h
  rw [completeNow_dev, fireUpdate_timeBase]
  have hlate : oneSec < s.dev.owed s.time - oneSec := by simp only [oneSec]; omega
  refine ⟨fun hp => ?discard, fun hp => ?slew⟩
  case discard =>
    rw [secondsToApply_discard _ _ hlate hp]
    exact (Nat.mod_eq_sub_div_mul (k := oneSec)).symm
  case slew =>
    rw [secondsToApply_slew _ _ hlate hp]
    simp only [oneSec]
    omega

/-! The update deadline on schedule and during a catch-up, 10_state.md R42 and 45_lost_tick.md R244. -/

theorem nextUpdateDeadline_on_schedule (c : Config) (d : Device) (h : d.timeBase.off < oneSec) :
    d.nextUpdateDeadline c = d.timeBase.ref + (oneSec - d.timeBase.off) := if_pos h

theorem nextUpdateDeadline_slew (c : Config) (d : Device) (hp : c.lostTickPolicy = .slew)
    (h : oneSec ≤ d.timeBase.off) : d.nextUpdateDeadline c = d.timeBase.ref + c.slewInterval := by
  rw [Device.nextUpdateDeadline, if_neg h.not_gt, pace, hp]

/-- The debt at an instant is a second and the lateness against the deadline on schedule. -/
theorem owed_on_schedule (c : Config) (d : Device) (now : Nat) (h : d.timeBase.off < oneSec)
    (hdue : d.nextUpdateDeadline c ≤ now) : d.owed now = oneSec + (now - d.nextUpdateDeadline c) := by
  rw [nextUpdateDeadline_on_schedule c d h] at hdue ⊢
  rw [Device.owed]
  omega

/-- Settles O40: the debt after the fire is its lateness, which the next deadline takes off again. -/
theorem lateFireWithinToleranceKeepsTheGrid : Obligations.LateFireWithinToleranceKeepsTheGrid := by
  intro s t h hoff _ hlate
  obtain ⟨_, hdue, rfl⟩ := (execEvUpdate_next s t).1 h
  have howed := owed_on_schedule s.config s.dev s.time hoff hdue
  have hone : secondsToApply s.config (s.dev.owed s.time) = 1 :=
    secondsToApply_of_tolerated _ _ (by rw [howed, Nat.add_sub_cancel_left]; simp only [oneSec]; omega)
  have hbase : (s.dev.fireUpdate s.config s.time).timeBase = ⟨s.time, s.time - s.dev.nextUpdateDeadline s.config⟩ := by
    rw [fireUpdate_timeBase, hone, howed, one_mul, Nat.add_sub_cancel_left]
  have hnext : (s.dev.fireUpdate s.config s.time).timeBase.off < oneSec := by
    rw [hbase]
    simp only [oneSec]
    omega
  refine ⟨hone, ?_⟩
  rw [completeNow_dev, completeNow_config, nextUpdateDeadline_on_schedule _ _ hnext, hbase]
  simp only [oneSec]
  omega

/-! The catch-up under Slew, 45_lost_tick.md R245. -/

/-- A catch-up fire delivered when due applies one second of the debt, which the wait has raised by SLEW_INTERVAL. -/
theorem fireUpdate_catchUp (c : Config) (d : Device) (hp : c.lostTickPolicy = .slew) (hpace : c.slewInterval < oneSec)
    (hback : d.timeBase.off / oneSec ≤ c.slewMaxBacklog) (howes : oneSec ≤ d.timeBase.off) :
    (d.fireUpdate c (d.nextUpdateDeadline c)).timeBase =
      ⟨d.timeBase.ref + c.slewInterval, d.timeBase.off + c.slewInterval - oneSec⟩ := by
  have howed : d.owed (d.timeBase.ref + c.slewInterval) = d.timeBase.off + c.slewInterval := by
    rw [Device.owed, Nat.add_sub_cancel_left]
  have hone : secondsToApply c (d.timeBase.off + c.slewInterval) = 1 :=
    secondsToApply_of_backlog c _ hp (by simp only [oneSec] at hpace hback ⊢; omega)
  rw [nextUpdateDeadline_slew c d hp howes, fireUpdate_timeBase, howed, hone, one_mul]

/-- The debt and the anchor after `k` catch-up fires. -/
theorem onTimeFires_timeBase (c : Config) (d : Device) (hp : c.lostTickPolicy = .slew) (hpace : c.slewInterval < oneSec)
    (hback : d.timeBase.off / oneSec ≤ c.slewMaxBacklog) (k : Nat)
    (howes : ∀ j < k, oneSec ≤ (onTimeFires c d j).timeBase.off) :
    (onTimeFires c d k).timeBase.off + k * (oneSec - c.slewInterval) = d.timeBase.off ∧
    (onTimeFires c d k).timeBase.ref = d.timeBase.ref + k * c.slewInterval := by
  induction k with
  | zero => simp [onTimeFires]
  | succ k ih =>
    obtain ⟨hoff, href⟩ := ih (fun j hj => howes j (by omega))
    have howesk := howes k (by omega)
    have hbackk : (onTimeFires c d k).timeBase.off / oneSec ≤ c.slewMaxBacklog :=
      (Nat.div_le_div_right (by omega)).trans hback
    rw [onTimeFires, fireUpdate_catchUp c _ hp hpace hbackk howesk, Nat.add_mul, Nat.add_mul]
    dsimp only
    omega

/-- Settles O41: the debt falls by a positive amount with each fire, so it cannot last for as many fires as it has
ticks. -/
theorem slewCatchUpConverges : Obligations.SlewCatchUpConverges := by
  intro c d hp _ hpace hback
  have after := onTimeFires_timeBase c d hp hpace hback
  refine ⟨after, ?_⟩
  by_contra! howes
  obtain ⟨hoff, _⟩ := after d.timeBase.off (fun j hj => howes j hj.le)
  have hleft := howes d.timeBase.off le_rfl
  have hpaid : d.timeBase.off ≤ d.timeBase.off * (oneSec - c.slewInterval) :=
    Nat.le_mul_of_pos_right _ (Nat.sub_pos_of_lt hpace)
  omega

end Sys2Proof.Machine

namespace Sys2Proof.Machine

open Sys2Proof

/-! The three host notifiers, 46_suspend_reset.md: the device record each leaves, and when it is a step. -/

/-- The record CLK_RESET leaves at `now`, R260. -/
def Device.reanchor (now : Nat) (d : Device) : Device :=
  { d with
    timeBase := { ref := now, off := d.timeBase.off }
    nextPeriodicDeadline := armPeriodic d.periodicPeriod now }

/-- The record SUSPEND leaves at the wall instant `wall`, R261. -/
def Device.suspendAt (wall : Nat) (d : Device) : Device := { d with suspendRecord := some wall, phase := .suspended }

/-- The record RESUME leaves at the wall instant `wall`, R262. -/
def Device.resumeAt (c : Config) (wall : Nat) (d : Device) : Device :=
  { d with
    timeBase := { ref := d.timeBase.ref, off := d.timeBase.off + suspendCredit c d.suspendInstant wall }
    suspendRecord := none
    phase := .running }

/-- A conditional that refuses has a next state exactly on its other branch. -/
theorem ite_next_iff {p : Prop} [Decidable p] {a t : State} {r : Refusal} :
    (if p then .next a else .refused r : Result) = .next t ↔ p ∧ a = t :=
  ⟨ite_next, fun ⟨hp, ha⟩ => by rw [if_pos hp, ha]⟩

theorem execClkReset_next (s t : State) :
    execClkReset s = .next t ↔ s.dev.phase = .running ∧ completeNow s (s.dev.reanchor s.time) none = t :=
  ite_next_iff

theorem execSuspend_next (s t : State) :
    execSuspend s = .next t ↔ s.dev.phase = .running ∧ complete s (s.dev.suspendAt s.time) none s.lastNow = t :=
  ite_next_iff

theorem execResume_next (s t : State) :
    execResume s = .next t ↔
      s.dev.phase = .suspended ∧ complete s (s.dev.resumeAt s.config s.time) none s.lastNow = t :=
  ite_next_iff

/-- The counterpart of `completes_without_edge` for an operation that carries `wall`, 60_exceptions.md R303. -/
theorem completes_at_wall_without_edge (i : Instr) (s : State) (d : Device)
    (hx : exec i s = .next (complete s d none s.lastNow)) (hline : d.line = s.dev.line) :
    ∃ t, exec i s = .next t ∧ t.dev = d ∧ t.edge = none ∧ t.lastNow = s.lastNow ∧ Reports s t none :=
  ⟨_, hx, rfl, by rw [complete_edge, hline, edgeOf_self], rfl, rfl, rfl, rfl, rfl, rfl, rfl⟩

/-- The line is a view of the register file alone, 10_state.md R39. -/
theorem line_of_regs_eq (d e : Device) (h : e.regs = d.regs) : e.line = d.line := by
  rw [Device.line, Device.line, Device.reg, Device.reg, h, Device.reg, Device.reg]

/-- Settles O30: CLK_RESET is a step in phase Running with no test of the time contract. -/
theorem clockResetReanchors : Obligations.ClockResetReanchors := fun s hrunning =>
  completes_without_edge .clkReset s (s.dev.reanchor s.time) none ((execClkReset_next s _).2 ⟨hrunning, rfl⟩)
    (line_of_regs_eq s.dev _ rfl)

/-- Settles O31: the record SUSPEND leaves, in which the instant is in view because the phase is Suspended. -/
theorem suspendRecordsTheWallInstant : Obligations.SuspendRecordsTheWallInstant := by
  refine ⟨by decide, fun s => ⟨fun hrunning => ?step, fun hother => if_neg hother⟩⟩
  case step =>
    obtain ⟨t, hx, hdev, hedge, hlast, hreports⟩ := completes_at_wall_without_edge .suspend s (s.dev.suspendAt s.time)
      ((execSuspend_next s _).2 ⟨hrunning, rfl⟩) (line_of_regs_eq s.dev _ rfl)
    have hinstant : (s.dev.suspendAt s.time).suspendInstant = some s.time := Device.suspendInstant_of_suspended _ rfl
    exact ⟨t, hx, hdev, hdev ▸ hinstant, hedge, hlast, hreports⟩

theorem suspendCredit_of_instant (c : Config) (began wall : Nat) :
    suspendCredit c (some began) wall = if c.suspendFrozen then 0 else wall - began := rfl

theorem resumeAt_of_instant (c : Config) (began wall : Nat) (d : Device) (h : d.suspendInstant = some began) :
    d.resumeAt c wall =
      { d with
        timeBase :=
          { ref := d.timeBase.ref, off := d.timeBase.off + if c.suspendFrozen then 0 else wall - began }
        suspendRecord := none
        phase := .running } := by
  rw [Device.resumeAt, h, suspendCredit_of_instant]

/-- Settles O32: the record RESUME leaves when an instant is recorded. -/
theorem resumeCreditsTheSuspendedTime : Obligations.ResumeCreditsTheSuspendedTime := by
  intro s began hsuspended hbegan
  obtain ⟨t, hx, hdev, hedge, hlast, hreports⟩ := completes_at_wall_without_edge .resume s
    (s.dev.resumeAt s.config s.time) ((execResume_next s _).2 ⟨hsuspended, rfl⟩) (line_of_regs_eq s.dev _ rfl)
  have hinstant : (s.dev.resumeAt s.config s.time).suspendInstant = none :=
    Device.suspendInstant_of_not_suspended _ nofun
  exact ⟨t, hx, hdev.trans (resumeAt_of_instant _ _ _ _ hbegan), hdev ▸ hinstant, hedge, hlast, hreports⟩

/-- A notifier leaves the register file and does not take from the owed time at the anchor. -/
theorem notifier_regs_and_off (i : Instr) (hi : i ∈ ([.clkReset, .suspend, .resume] : List Instr)) (s t : State)
    (h : exec i s = .next t) : t.dev.regs = s.dev.regs ∧ s.dev.timeBase.off ≤ t.dev.timeBase.off := by
  simp only [List.mem_cons, List.not_mem_nil, or_false] at hi
  obtain rfl | rfl | rfl := hi
  · obtain ⟨_, rfl⟩ := (execClkReset_next s t).1 h
    exact ⟨rfl, Nat.le_refl _⟩
  · obtain ⟨_, rfl⟩ := (execSuspend_next s t).1 h
    exact ⟨rfl, Nat.le_refl _⟩
  · obtain ⟨_, rfl⟩ := (execResume_next s t).1 h
    exact ⟨rfl, Nat.le_add_right _ _⟩

/-- Settles O33: the register file is the same, so every register and the time decoded from it are. -/
theorem adaptersNeverMoveTheClockBack : Obligations.AdaptersNeverMoveTheClockBack := by
  intro i hi s t h
  obtain ⟨hregs, hoff⟩ := notifier_regs_and_off i hi s t h
  have hreg (j : Byte) : t.dev.reg j = s.dev.reg j := by rw [Device.reg, hregs, Device.reg]
  exact ⟨hreg, decodeTime_congr s.dev t.dev fun j _ => hreg j, hoff⟩

/-! The update deadline after a credit, 10_state.md R42 and 46_suspend_reset.md R262. -/

theorem nextUpdateDeadline_of_debt (c : Config) (d : Device) (h : oneSec ≤ d.timeBase.off) :
    d.nextUpdateDeadline c = d.timeBase.ref + pace c := if_neg h.not_gt

theorem nextUpdateDeadline_discard (c : Config) (d : Device) (hp : c.lostTickPolicy = .discard)
    (h : oneSec ≤ d.timeBase.off) : d.nextUpdateDeadline c = d.timeBase.ref := by
  rw [nextUpdateDeadline_of_debt c d h, pace, hp, Nat.add_zero]

/-- A credit at the same anchor moves the update deadline later only when it starts a catch-up under Slew and less than
SLEW_INTERVAL was missing to a second. -/
theorem nextUpdateDeadline_of_credit (c : Config) (d e : Device) (href : e.timeBase.ref = d.timeBase.ref)
    (hcredit : d.timeBase.off ≤ e.timeBase.off) :
    e.nextUpdateDeadline c ≤ d.nextUpdateDeadline c ∨
      (c.lostTickPolicy = .slew ∧ d.timeBase.off < oneSec ∧ oneSec ≤ e.timeBase.off ∧
        oneSec - d.timeBase.off < c.slewInterval ∧ e.nextUpdateDeadline c = d.timeBase.ref + c.slewInterval) := by
  rcases Nat.lt_or_ge e.timeBase.off oneSec with hafter | hafter
  · left
    rw [nextUpdateDeadline_on_schedule c e hafter, nextUpdateDeadline_on_schedule c d (hcredit.trans_lt hafter), href]
    omega
  rcases Nat.lt_or_ge d.timeBase.off oneSec with hbefore | hbefore
  · rw [nextUpdateDeadline_on_schedule c d hbefore]
    cases hp : c.lostTickPolicy with
    | discard =>
      left
      rw [nextUpdateDeadline_discard c e hp hafter, href]
      exact Nat.le_add_right _ _
    | slew =>
      rw [nextUpdateDeadline_slew c e hp hafter, href]
      rcases Nat.lt_or_ge (oneSec - d.timeBase.off) c.slewInterval with hmissing | hmissing
      · exact .inr ⟨rfl, hbefore, hafter, hmissing, rfl⟩
      · exact .inl (Nat.add_le_add_left hmissing _)
  · left
    rw [nextUpdateDeadline_of_debt c e hafter, nextUpdateDeadline_of_debt c d hbefore, href]

/-! An enabled timer event is a step of every ready state, 42_periodic.md R182, 43_update_alarm.md R200, 44_coalescing.md
R223. -/

theorem evUpdate_is_step (u : State) (hu : u.Ready) (hdue : u.dev.nextUpdateDeadline u.config ≤ u.time) :
    ∃ w, exec .evUpdate u = .next w :=
  ⟨_, (execEvUpdate_next u _).2 ⟨hu, hdue, rfl⟩⟩

theorem evPeriodic_is_step (u : State) (hu : u.Ready) (dl : Nat) (harmed : u.dev.nextPeriodicDeadline = some dl)
    (hdue : dl ≤ u.time) : ∃ w, exec .evPeriodic u = .next w :=
  ⟨_, (execEvPeriodic_next u _).2 ⟨hu, dl, harmed, hdue, rfl⟩⟩

theorem evReinject_is_step (u : State) (hu : u.Ready) (hpending : u.dev.reinjectPending = true) :
    ∃ w, exec .evReinject u = .next w :=
  ⟨_, (execEvReinject_next u _).2 ⟨hu, hpending, rfl⟩⟩

/-- Settles O60: RESUME leaves the periodic deadline, the pending reinjection and the anchor, and credits the owed time,
so each event is enabled from its deadline on. -/
theorem resumeKeepsDueEventsDue : Obligations.ResumeKeepsDueEventsDue := by
  intro s t h
  obtain ⟨_, rfl⟩ := (execResume_next s t).1 h
  refine ⟨rfl, rfl, rfl, nextUpdateDeadline_of_credit s.config s.dev _ rfl (Nat.le_add_right _ _), ?events⟩
  case events =>
    intro u hdev hconfig hu
    refine ⟨fun hdue => evUpdate_is_step u hu ?_, fun dl harmed => evPeriodic_is_step u hu dl ?_,
      fun hpending => evReinject_is_step u hu ?_⟩
    · rwa [hdev, hconfig]
    · rw [hdev]
      exact harmed
    · rw [hdev]
      exact hpending

end Sys2Proof.Machine

namespace Sys2Proof.Machine

open Sys2Proof

/-! The record of the sink's invocations, 47_platform_ops.md R284. -/

/-- An assert is recorded only on a low line and a deassert only on a high one (40_port_access.md R133), so the record
agrees with the line after the edge when it agreed with the line before. -/
theorem sinkAgrees_recordEdge (log : List Edge) (before after : Bool) (h : sinkAgrees log before = true) :
    sinkAgrees (recordEdge (edgeOf before after) log) after = true := by
  cases before <;> cases after <;> exact h

theorem complete_sinkAgrees (s : State) (d : Device) (ret : Option Byte) (last : Nat)
    (h : sinkAgrees s.sink s.dev.line = true) :
    sinkAgrees (complete s d ret last).sink (complete s d ret last).dev.line = true := by
  rw [complete_sink, complete_dev]
  exact sinkAgrees_recordEdge s.sink s.dev.line d.line h

/-- No flag is pending after INIT, so the line starts low (47_platform_ops.md R280). -/
theorem initDevice_line (c : Config) (now : Nat) : (initDevice c now).line = false := by
  rw [Device.line, initDevice_regC]
  simp

theorem execInit_sinkInv (s t : State) (h : execInit s = .next t) : t.SinkInv := by
  obtain ⟨_, _, rfl⟩ := (execInit_next s t).1 h
  intro _
  rw [initDevice_line]
  rfl

/-- Every instruction but INIT starts from a live phase, where the premise holds, and completes with the edge of its
line (60_exceptions.md R314). -/
theorem exec_sinkInv (i : Instr) (s t : State) (hinv : s.SinkInv) (h : exec i s = .next t) : t.SinkInv := by
  by_cases hi : i = .init
  · subst hi
    exact execInit_sinkInv s t h
  have hattached : s.dev.phase ≠ .unattached := by rcases exec_live i s t hi h with hp | hp <;> rw [hp] <;> decide
  obtain ⟨_, ⟨ret, last, ht, _⟩, _⟩ := exec_next i s t hi h
  intro _
  rw [ht]
  exact complete_sinkAgrees s t.dev ret last (hinv hattached)

theorem accept_sinkInv (s : State) (r : Request) (rest : List Request) (h : s.SinkInv) :
    (s.accept r rest).SinkInv := h

/-- Settles O47: a step waits, or runs one instruction in the state that has accepted its request; INIT starts an empty
record with the line low, and every other instruction records the edge of its line. -/
theorem stepKeepsTheSinkRecord : Obligations.StepKeepsTheSinkRecord := by
  intro s t hinv h
  obtain ⟨_, rfl⟩ | ⟨r, rest, w, i, _, _, _, hx⟩ := (step_next s t).1 h
  · exact hinv
  · exact exec_sinkInv i _ t (accept_sinkInv s r rest hinv) hx

/-! TEARDOWN, 47_platform_ops.md R283. -/

/-- The record TEARDOWN leaves: the timers disarmed, the rest as it was. -/
def Device.tornDown (d : Device) : Device :=
  { d with nextPeriodicDeadline := none, reinjectPending := false, phase := .tornDown }

theorem execTeardown_next (s t : State) :
    execTeardown s = .next t ↔
      (s.dev.phase = .running ∨ s.dev.phase = .suspended) ∧ completeNow s s.dev.tornDown none = t :=
  ite_next_iff

theorem tornDown_line (d : Device) : d.tornDown.line = d.line := line_of_regs_eq d d.tornDown rfl

theorem tornDown_suspendInstant (d : Device) : d.tornDown.suspendInstant = none :=
  Device.suspendInstant_of_not_suspended d.tornDown nofun

/-- Settles O29: the registers stay, so the line does and there is no edge; outside phase Suspended the suspend instant
reads none. -/
theorem teardownCancelsTheTimers : Obligations.TeardownCancelsTheTimers := by
  intro s hlive
  obtain ⟨t, hx, hdev, hedge, hreports⟩ := completes_without_edge .teardown s s.dev.tornDown none
    ((execTeardown_next s _).2 ⟨hlive, rfl⟩) (tornDown_line s.dev)
  refine ⟨t, hx, hdev, ?_, hedge, hreports⟩
  rw [hdev]
  exact tornDown_suspendInstant s.dev

end Sys2Proof.Machine

namespace Sys2Proof.Machine

open Sys2Proof

/-! What each instruction answers, in the order of the checks of 60_exceptions.md R309. -/

theorem whenRunning_other_phase (s : State) (op : Result) (h : s.dev.phase ≠ .running) :
    whenRunning s op = .refused .wrongPhase := if_neg h

theorem whenRunning_early (s : State) (op : Result) (hphase : s.dev.phase = .running) (h : s.time < s.lastNow) :
    whenRunning s op = .refused .timeWentBack := by
  rw [whenRunning, if_pos hphase, if_pos h]

/-- The time contract applies only to operations of phase Running (R301, R303). -/
theorem admitted_of_timeChecked (i : Instr) (h : timeChecked i = true) (p : Phase) :
    admitted p i = decide (p = .running) := by
  simp only [timeChecked, carriesWall, Bool.and_eq_true, Bool.not_eq_true', Bool.or_eq_false_iff, decide_eq_true_eq,
    decide_eq_false_iff_not] at h
  obtain ⟨⟨⟨⟨_, hresume⟩, hinit⟩, _⟩, hteardown⟩ := h
  cases p <;> simp [admitted, hresume, hinit, hteardown]

/-- What an instruction answers: the phase is checked first (R301), then the time contract (R303), then INIT checks its
configuration (R307) and a timer event its enabling condition (R304); past its checks the instruction completes. -/
inductive Answer (i : Instr) (s : State) : Prop where
  | wrongPhase (phase : admitted s.dev.phase i = false) (answer : exec i s = .refused .wrongPhase)
  | timeWentBack (phase : admitted s.dev.phase i = true) (checked : timeChecked i = true) (early : s.time < s.lastNow)
      (answer : exec i s = .refused .timeWentBack)
  | illFormedConfig (instr : i = .init) (phase : admitted s.dev.phase i = true)
      (answer : exec i s = .refused .illFormedConfig)
  | notEnabled (event : isEvent i = true) (phase : admitted s.dev.phase i = true) (inTime : s.lastNow ≤ s.time)
      (answer : exec i s = .refused .notEnabled)
  | completes (phase : admitted s.dev.phase i = true) (inTime : timeChecked i = true → s.lastNow ≤ s.time)
      (t : State) (answer : exec i s = .next t)

/-- An operation under the time contract; only a timer event can be refused past both checks. -/
theorem answer_of_whenRunning (i : Instr) (s : State) (op : Result) (hexec : exec i s = whenRunning s op)
    (hchecked : timeChecked i = true) (hop : (∃ t, op = .next t) ∨ isEvent i = true ∧ op = .refused .notEnabled) :
    Answer i s := by
  have hphase := admitted_of_timeChecked i hchecked s.dev.phase
  by_cases hrunning : s.dev.phase = .running
  · have hadmitted := hphase.trans (decide_eq_true hrunning)
    by_cases hearly : s.time < s.lastNow
    · exact .timeWentBack hadmitted hchecked hearly (hexec.trans (whenRunning_early s op hrunning hearly))
    · have hinTime := Nat.not_lt.1 hearly
      rw [whenRunning_ready s op ⟨hrunning, hinTime⟩] at hexec
      obtain ⟨t, rfl⟩ | ⟨hevent, rfl⟩ := hop
      · exact .completes hadmitted (fun _ => hinTime) t hexec
      · exact .notEnabled hevent hadmitted hinTime hexec
  · exact .wrongPhase (hphase.trans (decide_eq_false hrunning)) (hexec.trans (whenRunning_other_phase s op hrunning))

/-- An operation that checks its phase alone. -/
theorem answer_of_phase_check (i : Instr) (s t : State) (p : Prop) [Decidable p]
    (hexec : exec i s = if p then .next t else .refused .wrongPhase) (hphase : admitted s.dev.phase i = true ↔ p)
    (hchecked : timeChecked i = false) : Answer i s := by
  by_cases hp : p
  · exact .completes (hphase.2 hp) (by simp [hchecked]) t (hexec.trans (if_pos hp))
  · exact .wrongPhase (by simpa using mt hphase.1 hp) (hexec.trans (if_neg hp))

theorem datRd_eq_whenRunning (idx : Byte) (s : State) : ∃ t, datRd idx s = whenRunning s (.next t) := by
  unfold datRd
  split <;> exact ⟨_, rfl⟩

/-- A conditional with a next state on one branch is that state or its refusal. -/
theorem ite_next_or_refused (p : Prop) [Decidable p] (a : State) (r : Refusal) :
    (∃ t, (if p then .next a else .refused r : Result) = .next t) ∨
      (if p then .next a else .refused r : Result) = .refused r := by
  by_cases hp : p
  · exact .inl ⟨a, if_pos hp⟩
  · exact .inr (if_neg hp)

/-- Past the two common checks a timer event completes or is refused NotEnabled (R304). -/
theorem event_eq_whenRunning (i : Instr) (hi : i ∈ ([.evPeriodic, .evUpdate, .evReinject] : List Instr)) (s : State) :
    ∃ op, exec i s = whenRunning s op ∧ ((∃ t, op = .next t) ∨ op = .refused .notEnabled) := by
  simp only [List.mem_cons, List.not_mem_nil, or_false] at hi
  obtain rfl | rfl | rfl := hi
  · refine ⟨_, rfl, ?_⟩
    cases s.dev.nextPeriodicDeadline with
    | none => exact .inr rfl
    | some dl => exact ite_next_or_refused _ _ _
  · exact ⟨_, rfl, ite_next_or_refused _ _ _⟩
  · exact ⟨_, rfl, ite_next_or_refused _ _ _⟩

theorem answer_of_event (i : Instr) (hi : i ∈ ([.evPeriodic, .evUpdate, .evReinject] : List Instr)) (s : State) :
    Answer i s := by
  obtain ⟨hchecked, hevent⟩ : timeChecked i = true ∧ isEvent i = true := by revert i; decide
  obtain ⟨op, hexec, hop⟩ := event_eq_whenRunning i hi s
  exact answer_of_whenRunning i s op hexec hchecked (hop.imp_right fun h => ⟨hevent, h⟩)

theorem admitted_init_iff (p : Phase) : admitted p .init = true ↔ p = .unattached := by cases p <;> decide

theorem answer_of_init (s : State) : Answer .init s := by
  have hadmitted := admitted_init_iff s.dev.phase
  by_cases hphase : s.dev.phase = .unattached
  · by_cases hconfig : configWellFormed s.config = true
    · exact .completes (hadmitted.2 hphase) (by simp [timeChecked]) _
        ((execInit_next s _).2 ⟨hphase, hconfig, rfl⟩)
    · exact .illFormedConfig rfl (hadmitted.2 hphase) ((if_pos hphase).trans (if_neg hconfig))
  · exact .wrongPhase (by simpa using mt hadmitted.1 hphase) (if_neg hphase)

/-- Every instruction in every state gives one of the answers of R309. -/
theorem exec_answer (i : Instr) (s : State) : Answer i s := by
  have running (t : State) (hexec : exec i s = whenRunning s (.next t)) (hchecked : timeChecked i = true) :
      Answer i s := answer_of_whenRunning i s _ hexec hchecked (.inl ⟨t, rfl⟩)
  rcases exec_shape i with ⟨idx, v, he, hx⟩ | ⟨idx, he, hx⟩ | ⟨idx, he, hx⟩ | ⟨v, rfl⟩ | hm
  · have hchecked : timeChecked i = true := by
      rcases he with he | he <;> exact (formatX_checked i _ idx v he (by simp)).1.1
    exact running _ (hx s) hchecked
  · obtain ⟨t, ht⟩ := datRd_eq_whenRunning idx s
    exact running t ((hx s).trans ht) (formatX_checked i _ idx _ he (by simp)).1.1
  · exact running _ (hx s) (formatX_checked i _ idx _ he (by simp)).1.1
  · exact running _ rfl rfl
  · simp only [List.mem_cons, List.not_mem_nil, or_false] at hm
    rcases hm with rfl | rfl | rfl | rfl | rfl | rfl | rfl | rfl | rfl | rfl
    · exact running _ rfl rfl
    · exact running _ rfl rfl
    · exact answer_of_phase_check .clkReset s _ _ rfl (by cases s.dev.phase <;> decide) rfl
    · exact answer_of_phase_check .suspend s _ _ rfl (by cases s.dev.phase <;> decide) rfl
    · exact answer_of_phase_check .resume s _ _ rfl (by cases s.dev.phase <;> decide) rfl
    · exact answer_of_event .evPeriodic (by decide) s
    · exact answer_of_event .evUpdate (by decide) s
    · exact answer_of_event .evReinject (by decide) s
    · exact answer_of_init s
    · exact answer_of_phase_check .teardown s _ _ rfl (by cases s.dev.phase <;> decide) rfl

theorem exec_wrongPhase_iff (i : Instr) (s : State) :
    exec i s = .refused .wrongPhase ↔ admitted s.dev.phase i = false := by
  cases exec_answer i s with
  | wrongPhase phase answer => exact iff_of_true answer phase
  | timeWentBack phase _ _ answer | illFormedConfig _ phase answer | notEnabled _ phase _ answer
  | completes phase _ _ answer => simp [answer, phase]

theorem exec_timeWentBack_iff (i : Instr) (s : State) :
    exec i s = .refused .timeWentBack ↔
      admitted s.dev.phase i = true ∧ timeChecked i = true ∧ s.time < s.lastNow := by
  cases exec_answer i s with
  | wrongPhase phase answer => simp [answer, phase]
  | timeWentBack phase checked early answer => exact iff_of_true answer ⟨phase, checked, early⟩
  | illFormedConfig instr _ answer =>
    rw [answer, instr]
    exact iff_of_false nofun (by simp [timeChecked])
  | notEnabled _ _ inTime answer => simp [answer, inTime.not_gt]
  | completes _ inTime _ answer =>
    rw [answer]
    exact iff_of_false nofun fun ⟨_, hchecked, hearly⟩ => (inTime hchecked).not_gt hearly

theorem exec_ne_addrOutOfRange (i : Instr) (s : State) : exec i s ≠ .refused .addrOutOfRange := by
  cases exec_answer i s with
  | wrongPhase _ answer | timeWentBack _ _ _ answer | illFormedConfig _ _ answer | notEnabled _ _ _ answer
  | completes _ _ _ answer => rw [answer]; nofun

/-- Settles O8: the phase is the first check of every instruction, and no later answer is WrongPhase. -/
theorem phaseAdmissionTable : Obligations.PhaseAdmissionTable := fun i s =>
  ⟨(exec_wrongPhase_iff i s).2, fun hadmitted hrefused => by
    rw [(exec_wrongPhase_iff i s).1 hrefused] at hadmitted
    cases hadmitted⟩

/-- The instant an instruction ends at (R303). -/
theorem exec_lastNow (i : Instr) (s t : State) (h : exec i s = .next t) :
    t.lastNow = if carriesWall i then s.lastNow else s.time := by
  by_cases hi : i = .init
  · subst hi
    obtain ⟨_, _, rfl⟩ := (execInit_next s t).1 h
    rfl
  · obtain ⟨_, ⟨ret, last, ht, ⟨hlast, hwall⟩ | ⟨hlast, hwall⟩⟩, _⟩ := exec_next i s t hi h <;>
      rw [ht, complete_lastNow, hlast, hwall] <;> rfl

/-- Settles O9: TimeWentBack is the answer exactly of an admitted operation under the contract that comes early. -/
theorem timeContract : Obligations.TimeContract := by
  intro i s hadmitted
  have hback := exec_timeWentBack_iff i s
  refine ⟨fun hchecked => ?checked, fun hunchecked hrefused => ?unchecked, exec_lastNow i s⟩
  case checked => simp [hback, hadmitted, hchecked]
  case unchecked =>
    obtain ⟨_, hchecked, _⟩ := hback.1 hrefused
    rw [hunchecked] at hchecked
    cases hchecked

/-! A direct access above 0xFF has no transaction word, 47_platform_ops.md R281 and R282. -/

theorem step_of_no_word (s : State) (r : Request) (rest : List Request) (hin : s.inputs = r :: rest)
    (hw : r.transactionWord s.dev.selectedIndex = none) :
    step s = whenRunning (s.accept r rest) (.refused .addrOutOfRange) := by
  simp only [step, runNext, hin, runRequest, State.accept_dev, hw, rejectAddress]

theorem runWord_ne_addrOutOfRange (w : TWord) (s : State) : runWord w s ≠ .refused .addrOutOfRange := by
  cases hw : decode w with
  | ok i => rw [runWord_ok w s i hw]; exact exec_ne_addrOutOfRange i s
  | error e => rw [runWord_refused w s (by simp [hw])]; nofun

/-- Settles O7: the address is checked after the phase and the time contract, and only where there is no transaction
word. -/
theorem outOfRangeAddressIsRefused : Obligations.OutOfRangeAddressIsRefused := by
  refine ⟨fun s rest addr now v haddr hin => ?call, fun s rest w time hin => ?word⟩
  case call =>
    obtain ⟨r, hr, hnow, hword⟩ : ∃ r : Request, s.inputs = r :: rest ∧ r.time = now ∧
        r.transactionWord s.dev.selectedIndex = none := by
      rcases hin with hin | hin <;> exact ⟨_, hin, rfl, if_neg haddr.not_gt⟩
    subst hnow
    rw [step_of_no_word s r rest hr hword]
    exact ⟨whenRunning_other_phase (s.accept r rest) _, whenRunning_early (s.accept r rest) _,
      fun hrunning hinTime => whenRunning_ready (s.accept r rest) _ ⟨hrunning, hinTime⟩⟩
  case word =>
    rw [step_eq_runWord s _ rest _ hin rfl]
    exact runWord_ne_addrOutOfRange _ _

/-! When a timer event is enabled, 42_periodic.md R182, 43_update_alarm.md R200, 44_coalescing.md R223. -/

theorem ite_refused_iff {p : Prop} [Decidable p] {a : State} {r : Refusal} :
    (if p then .next a else .refused r : Result) = .refused r ↔ ¬ p := by
  by_cases hp : p <;> simp [hp]

theorem evPeriodic_notEnabled_iff (s : State) (hs : s.Ready) :
    exec .evPeriodic s = .refused .notEnabled ↔
      s.dev.nextPeriodicDeadline = none ∨ ∃ dl, s.dev.nextPeriodicDeadline = some dl ∧ s.time < dl := by
  rw [exec, execEvPeriodic, whenRunning_ready s _ hs]
  cases s.dev.nextPeriodicDeadline with
  | none => simp
  | some dl => simp

theorem evUpdate_notEnabled_iff (s : State) (hs : s.Ready) :
    exec .evUpdate s = .refused .notEnabled ↔ s.time < s.dev.nextUpdateDeadline s.config := by
  rw [exec, execEvUpdate, whenRunning_ready s _ hs, ite_refused_iff, Nat.not_le]

theorem evReinject_notEnabled_iff (s : State) (hs : s.Ready) :
    exec .evReinject s = .refused .notEnabled ↔ s.dev.reinjectPending = false := by
  rw [exec, execEvReinject, whenRunning_ready s _ hs, ite_refused_iff, Bool.not_eq_true]

/-- Settles O10: past the common checks each event tests its own enabling condition. -/
theorem timerEventsRefusedWhenNotEnabled : Obligations.TimerEventsRefusedWhenNotEnabled := fun s hs =>
  ⟨evPeriodic_notEnabled_iff s hs, evUpdate_notEnabled_iff s hs, evReinject_notEnabled_iff s hs⟩

end Sys2Proof.Machine

namespace Sys2Proof.Machine

open Sys2Proof

/-! INIT, 47_platform_ops.md R280: when it is refused, and the device record it leaves. -/

theorem configWellFormed_iff (c : Config) :
    configWellFormed c = true ↔
      1 ≤ c.slewInterval ∧ c.slewInterval ≤ 32767 ∧ validTime c.baseYear c.initTime = true := by
  simp only [configWellFormed, Bool.and_eq_true, decide_eq_true_eq, and_assoc, oneSec, Nat.lt_succ_iff,
    Nat.succ_le_iff]

/-- Settles O11: in phase Unattached the configuration is the one check of INIT. -/
theorem illFormedConfigurationIsRefused : Obligations.IllFormedConfigurationIsRefused := by
  intro s hphase
  have hx : exec .init s = if configWellFormed s.config then .next _ else .refused .illFormedConfig := if_pos hphase
  rw [hx, ite_refused_iff, configWellFormed_iff]

/-- The control registers as given, the image everywhere else. -/
theorem read_initRegs (c : Config) (j : Byte) :
    Memory.read (initRegs c) j.toNat =
      if regD = j then 0x80 else if regC = j then 0x00 else if regB = j then c.initRegB
      else if regA = j then c.initRegA &&& 0x7F else Memory.read c.initImage j.toNat := by
  simp only [initRegs, Memory.read_write, BitVec.toNat_inj, Memory.read_ofImage c.initImage j.toNat j.isLt]

theorem initDevice_regB (c : Config) (now : Nat) : (initDevice c now).reg regB = c.initRegB := by
  rw [initDevice_reg c now regB (by decide), read_initRegs]
  rfl

theorem initDevice_reg_of_image (c : Config) (now : Nat) (j : Byte)
    (hj : j ∈ [regSecondsAlarm, regMinutesAlarm, regHoursAlarm] ∨ 0x0E ≤ j) :
    (initDevice c now).reg j = Memory.read c.initImage j.toNat := by
  obtain ⟨htime, hA, hB, hC, hD⟩ : j ∉ timeRegs ∧ regA ≠ j ∧ regB ≠ j ∧ regC ≠ j ∧ regD ≠ j := by
    revert j; decide
  rw [initDevice_reg c now j htime, read_initRegs, if_neg hD, if_neg hC, if_neg hB, if_neg hA]

/-- The time registers encode INIT_TIME under the modes of INIT_REG_B, 41_codec.md R157. -/
theorem initDevice_timeRegisters (c : Config) (now : Nat) :
    (∀ p ∈ [(regSeconds, c.initTime.sec), (regMinutes, c.initTime.min), (regDayOfWeek, c.initTime.dow),
        (regDayOfMonth, c.initTime.mday), (regMonth, c.initTime.mon), (regYear, c.initTime.year)],
      (initDevice c now).reg p.1 = encField p.2 (c.initRegB.getLsbD 2)) ∧
    (initDevice c now).reg regHours = encodeHour c.initTime.hour (c.initRegB.getLsbD 2) (c.initRegB.getLsbD 1) := by
  obtain ⟨blank, hinit, hB⟩ : ∃ blank : Device, initDevice c now = blank.encodeTime c.initTime ∧
      blank.reg regB = c.initRegB := ⟨_, rfl, (read_initRegs c regB).trans rfl⟩
  rw [hinit]
  simp only [List.forall_mem_cons, List.not_mem_nil, false_imp_iff, implies_true, and_true, encodeTime_reg,
    Device.dm, Device.h24, hB]
  exact ⟨⟨rfl, rfl, rfl, rfl, rfl, rfl⟩, rfl⟩

/-- No second is owed after INIT, so the first update is one second away. -/
theorem initDevice_nextUpdateDeadline (c : Config) (now : Nat) :
    (initDevice c now).nextUpdateDeadline c = now + 32768 :=
  nextUpdateDeadline_on_schedule c _ (show 0 < oneSec by decide)

/-- Settles O27: the record INIT leaves is a function of the configuration and the instant alone. -/
theorem initLeavesTheResetTable : Obligations.InitLeavesTheResetTable := by
  intro s hphase hconfig
  obtain ⟨htime, hhours⟩ := initDevice_timeRegisters s.config s.time
  exact ⟨_, (execInit_next s _).2 ⟨hphase, hconfig, rfl⟩, htime, hhours, initDevice_reg_of_image s.config s.time,
    initDevice_regA s.config s.time, initDevice_regB s.config s.time, initDevice_regC s.config s.time,
    initDevice_regD s.config s.time, rfl, rfl, rfl, initDevice_nextUpdateDeadline s.config s.time, rfl, rfl, rfl, rfl,
    rfl, initDevice_line s.config s.time, rfl, rfl, rfl, rfl, rfl, rfl⟩

/-! The reset state, 70_reset_and_hazards.md R340. -/

/-- An image without a cell leaves no cell: a register that holds the default byte is not listed. -/
theorem ofImage_nil : Memory.ofImage [] = [] :=
  List.foldl_fixed' (fun _ => rfl) _

theorem initDevice_atReset : initDevice Config.atReset 0 = State.reset.dev := by
  rw [initDevice, initRegs, show Config.atReset.initImage = [] from rfl, ofImage_nil]
  decide

/-- Settles O28: INIT replaces every field but the configuration, the inputs and the time argument. -/
theorem resetIsInitAtTickZero : Obligations.ResetIsInitAtTickZero := by
  intro s hphase hconfig htime hinputs
  refine (execInit_next s _).2 ⟨hphase, by rw [hconfig]; decide, ?_⟩
  rw [hconfig, htime, hinputs, initDevice_atReset]
  rfl

/-- A device before INIT that holds the configuration of the reset state (log 2). -/
def State.beforeReset : State := { State.reset with dev := { State.reset.dev with phase := .unattached } }

theorem init_beforeReset : exec .init State.beforeReset = .next State.reset :=
  resetIsInitAtTickZero State.beforeReset rfl rfl rfl rfl

/-- Settles O46: the reset state is a state INIT leaves, and INIT establishes both invariants. -/
theorem resetHasTheInvariant : Obligations.ResetHasTheInvariant :=
  ⟨execInit_inv State.beforeReset State.reset init_beforeReset,
    execInit_sinkInv State.beforeReset State.reset init_beforeReset⟩

end Sys2Proof.Machine

namespace Sys2Proof.Machine

open Sys2Proof

/-! A device record is its registers and the fields beside them. -/

theorem Memory.read_of_not_mem (m : Memory) (a : Nat) (h : ∀ c ∈ m, c.1 ≠ a) : Memory.read m a = 0x00 := by
  induction m with
  | nil => rfl
  | cons c m ih =>
    rw [Memory.read_cons, if_neg (h c List.mem_cons_self)]
    exact ih fun x hx => h x (List.mem_cons_of_mem c hx)

/-- No index of 256 or more is listed in the canonical form. -/
theorem Memory.read_of_ge (m : Memory) (hm : Memory.wf m) (a : Nat) (ha : 256 ≤ a) : Memory.read m a = 0x00 :=
  Memory.read_of_not_mem m a fun c hc => ((hm.2 c hc).1.trans_le ha).ne

theorem regs_eq_of_reg_eq (d e : Device) (hd : Memory.wf d.regs) (he : Memory.wf e.regs)
    (h : ∀ j, d.reg j = e.reg j) : d.regs = e.regs := by
  refine Memory.ext_of_read _ _ hd he fun a => ?_
  by_cases ha : a < 256
  · simpa [Device.reg, Nat.mod_eq_of_lt ha] using h (BitVec.ofNat 8 a)
  · rw [Memory.read_of_ge _ hd a (by omega), Memory.read_of_ge _ he a (by omega)]

theorem eq_of_sameButRegs (d e : Device) (hregs : e.regs = d.regs) (h : d.SameButRegs e) : e = d := by
  obtain ⟨hindex, hbase, hdeadline, hcount, hpending, hphase, hrecord⟩ := h
  cases d
  cases e
  simp_all

/-! The update fire reads the anchor and the registers away from the status register alone, and the periodic fire writes
neither, 60_exceptions.md R316. -/

/-- What the codec writes depends on the modes, and what it leaves is as it was. -/
theorem encodeTime_reg_congr (d e : Device) (c : CalTime) (h : ∀ j, j ≠ regC → e.reg j = d.reg j) (j : Byte)
    (hj : j ≠ regC) : (e.encodeTime c).reg j = (d.encodeTime c).reg j := by
  have hB : e.reg regB = d.reg regB := h regB (by decide)
  simp only [encodeTime_reg, Device.dm, Device.h24, hB, h j hj]

theorem fireUpdate_reg_congr (c : Config) (now : Nat) (d e : Device) (hbase : e.timeBase = d.timeBase)
    (h : ∀ j, j ≠ regC → e.reg j = d.reg j) (j : Byte) (hj : j ≠ regC) :
    (e.fireUpdate c now).reg j = (d.fireUpdate c now).reg j := by
  rw [fireUpdate_reg_of_ne c now e j hj, fireUpdate_reg_of_ne c now d j hj, decodeTime_congr d e h, Device.owed, hbase]
  exact encodeTime_reg_congr d e _ h j hj

theorem firePeriodic_reg_of_ne (c : Config) (now dl : Nat) (d : Device) (j : Byte) (hj : j ≠ regC) :
    (d.firePeriodic c now dl).reg j = d.reg j := by
  rw [firePeriodic_reg, if_neg hj.symm]

theorem firePeriodic_timeBase (c : Config) (now dl : Nat) (d : Device) :
    (d.firePeriodic c now dl).timeBase = d.timeBase := by rw [firePeriodic_fields]

theorem firePeriodic_nextPeriodicDeadline (c : Config) (now dl : Nat) (d : Device) :
    (d.firePeriodic c now dl).nextPeriodicDeadline =
      some (dl + elapsedPeriods now dl d.periodicPeriod * d.periodicPeriod) := by rw [firePeriodic_fields]

theorem firePeriodic_nextUpdateDeadline (c : Config) (now dl : Nat) (d : Device) :
    (d.firePeriodic c now dl).nextUpdateDeadline c = d.nextUpdateDeadline c := by
  rw [Device.nextUpdateDeadline, firePeriodic_timeBase, Device.nextUpdateDeadline]

/-- Away from the status register the two orders leave the registers of the update fire alone. -/
theorem fires_reg_of_ne (c : Config) (now dl : Nat) (d : Device) (j : Byte) (hj : j ≠ regC) :
    ((d.firePeriodic c now dl).fireUpdate c now).reg j = (d.fireUpdate c now).reg j :=
  fireUpdate_reg_congr c now d _ (firePeriodic_timeBase c now dl d)
    (fun k hk => firePeriodic_reg_of_ne c now dl d k hk) j hj

/-- Each fire ors its flags into the status register, and the alarm comparison reads no flag. -/
theorem fires_status_commute (c : Config) (now dl : Nat) (d : Device) :
    ((d.firePeriodic c now dl).fireUpdate c now).reg regC = ((d.fireUpdate c now).firePeriodic c now dl).reg regC := by
  have halarm := alarmMatches_congr (d.fireUpdate c now) _ (fires_reg_of_ne c now dl d)
  rw [fireUpdate_status, halarm, firePeriodic_reg, if_pos rfl, firePeriodic_reg, if_pos rfl, fireUpdate_status]
  ac_rfl

theorem fires_regs_commute (c : Config) (now dl : Nat) (d : Device) (hwf : Memory.wf d.regs) :
    ((d.firePeriodic c now dl).fireUpdate c now).regs = ((d.fireUpdate c now).firePeriodic c now dl).regs := by
  refine regs_eq_of_reg_eq _ _ (fireUpdate_wf _ _ _ (firePeriodic_wf _ _ _ _ hwf))
    (firePeriodic_wf _ _ _ _ (fireUpdate_wf _ _ _ hwf)) fun j => ?_
  by_cases hj : j = regC
  · rw [hj, fires_status_commute]
  · rw [fires_reg_of_ne c now dl d j hj, firePeriodic_reg_of_ne c now dl _ j hj]

/-! The periodic fire reads PF, PIE, the period and the backlog, and the update fire writes none of them. -/

theorem fireUpdate_pf (c : Config) (now : Nat) (d : Device) : (d.fireUpdate c now).pf = d.pf := by
  rw [Device.pf, fireUpdate_status, BitVec.getLsbD_or, BitVec.getLsbD_or]
  cases (d.fireUpdate c now).alarmMatches <;> simp [Device.pf]

theorem fireUpdate_reg_of_control (c : Config) (now : Nat) (d : Device) (j : Byte) (hj : j ∈ [regA, regB]) :
    (d.fireUpdate c now).reg j = d.reg j :=
  fireUpdate_sameRegsBut c now d j (by revert j; decide)

theorem fireUpdate_pie (c : Config) (now : Nat) (d : Device) : (d.fireUpdate c now).pie = d.pie := by
  rw [Device.pie, fireUpdate_reg_of_control c now d regB (by decide), Device.pie]

theorem fireUpdate_periodicPeriod (c : Config) (now : Nat) (d : Device) :
    (d.fireUpdate c now).periodicPeriod = d.periodicPeriod :=
  periodicPeriod_congr d _ (fireUpdate_reg_of_control c now d regA (by decide))

theorem fireUpdate_coalescedCount (c : Config) (now : Nat) (d : Device) :
    (d.fireUpdate c now).coalescedCount = d.coalescedCount := by rw [fireUpdate_fields]

theorem fireUpdate_nextPeriodicDeadline (c : Config) (now : Nat) (d : Device) :
    (d.fireUpdate c now).nextPeriodicDeadline = d.nextPeriodicDeadline := by rw [fireUpdate_fields]

theorem fires_coalescedCount_commute (c : Config) (now dl : Nat) (d : Device) :
    ((d.fireUpdate c now).firePeriodic c now dl).coalescedCount = (d.firePeriodic c now dl).coalescedCount := by
  simp only [firePeriodic_coalescedCount, fireUpdate_pf, fireUpdate_pie, fireUpdate_periodicPeriod,
    fireUpdate_coalescedCount]

/-- `e` has the fields of `d` that neither fire writes. -/
structure Device.SameUnfired (d e : Device) : Prop where
  selectedIndex : e.selectedIndex = d.selectedIndex
  reinjectPending : e.reinjectPending = d.reinjectPending
  phase : e.phase = d.phase
  suspendRecord : e.suspendRecord = d.suspendRecord

theorem Device.SameUnfired.symm {d e : Device} (h : d.SameUnfired e) : e.SameUnfired d :=
  ⟨h.selectedIndex.symm, h.reinjectPending.symm, h.phase.symm, h.suspendRecord.symm⟩

theorem Device.SameUnfired.trans {d e f : Device} (h : d.SameUnfired e) (h' : e.SameUnfired f) : d.SameUnfired f :=
  ⟨h'.selectedIndex.trans h.selectedIndex, h'.reinjectPending.trans h.reinjectPending, h'.phase.trans h.phase,
    h'.suspendRecord.trans h.suspendRecord⟩

theorem firePeriodic_sameUnfired (c : Config) (now dl : Nat) (d : Device) :
    d.SameUnfired (d.firePeriodic c now dl) := by
  constructor <;> rw [firePeriodic_fields]

theorem fireUpdate_sameUnfired (c : Config) (now : Nat) (d : Device) : d.SameUnfired (d.fireUpdate c now) := by
  constructor <;> rw [fireUpdate_fields]

/-- R316: the two fires due at one instant commute. -/
theorem fires_commute (c : Config) (now dl : Nat) (d : Device) (hwf : Memory.wf d.regs) :
    (d.firePeriodic c now dl).fireUpdate c now = (d.fireUpdate c now).firePeriodic c now dl := by
  have howed : (d.firePeriodic c now dl).owed now = d.owed now := by
    rw [Device.owed, firePeriodic_timeBase, Device.owed]
  have updateLast := (firePeriodic_sameUnfired c now dl d).trans (fireUpdate_sameUnfired c now _)
  have periodicLast := (fireUpdate_sameUnfired c now d).trans (firePeriodic_sameUnfired c now dl _)
  obtain ⟨hindex, hpending, hphase, hrecord⟩ := periodicLast.symm.trans updateLast
  refine eq_of_sameButRegs _ _ (fires_regs_commute c now dl d hwf)
    ⟨hindex, ?anchor, ?deadline, ?count, hpending, hphase, hrecord⟩
  case anchor => rw [fireUpdate_timeBase, howed, firePeriodic_timeBase, fireUpdate_timeBase]
  case deadline =>
    rw [fireUpdate_nextPeriodicDeadline, firePeriodic_nextPeriodicDeadline, firePeriodic_nextPeriodicDeadline,
      fireUpdate_periodicPeriod]
  case count => rw [fireUpdate_coalescedCount, fires_coalescedCount_commute]

/-- Two operations that never lower the line add at most one assert to the sink's record between them. -/
theorem recordEdge_two_rises (log : List Edge) (before between after : Bool) (h₁ : before = true → between = true)
    (h₂ : between = true → after = true) :
    recordEdge (edgeOf between after) (recordEdge (edgeOf before between) log) =
      if after && !before then .assert :: log else log := by
  revert h₁ h₂
  cases before <;> cases between <;> cases after <;> simp [edgeOf, recordEdge]

theorem firePeriodic_line_kept (c : Config) (now dl : Nat) (d : Device) (h : d.line = true) :
    (d.firePeriodic c now dl).line = true := by
  rw [firePeriodic_line, h, Bool.true_or]

/-- The state an enabled EV_PERIODIC leaves against the deadline `dl`, 42_periodic.md R183. -/
def State.afterPeriodic (dl : Nat) (s : State) : State := completeNow s (s.dev.firePeriodic s.config s.time dl) none

/-- The state an enabled EV_UPDATE leaves, 43_update_alarm.md R201. -/
def State.afterUpdate (s : State) : State := completeNow s (s.dev.fireUpdate s.config s.time) none

theorem evPeriodic_eq_next (s : State) (dl : Nat) (hs : s.Ready) (harmed : s.dev.nextPeriodicDeadline = some dl)
    (hdue : dl ≤ s.time) : exec .evPeriodic s = .next (s.afterPeriodic dl) :=
  (execEvPeriodic_next s _).2 ⟨hs, dl, harmed, hdue, rfl⟩

theorem evUpdate_eq_next (s : State) (hs : s.Ready) (hdue : s.dev.nextUpdateDeadline s.config ≤ s.time) :
    exec .evUpdate s = .next s.afterUpdate :=
  (execEvUpdate_next s _).2 ⟨hs, hdue, rfl⟩

/-- After the periodic fire the update event is as enabled as before. -/
theorem evUpdate_after_evPeriodic (s : State) (dl : Nat) (hs : s.Ready)
    (hdue : s.dev.nextUpdateDeadline s.config ≤ s.time) :
    exec .evUpdate (s.afterPeriodic dl) = .next (s.afterPeriodic dl).afterUpdate :=
  evUpdate_eq_next _ ⟨(firePeriodic_sameUnfired s.config s.time dl s.dev).phase.trans hs.1, Nat.le_refl _⟩
    ((firePeriodic_nextUpdateDeadline s.config s.time dl s.dev).trans_le hdue)

/-- After the update fire the periodic event is as enabled as before. -/
theorem evPeriodic_after_evUpdate (s : State) (dl : Nat) (hs : s.Ready)
    (harmed : s.dev.nextPeriodicDeadline = some dl) (hdue : dl ≤ s.time) :
    exec .evPeriodic s.afterUpdate = .next (s.afterUpdate.afterPeriodic dl) :=
  evPeriodic_eq_next _ dl ⟨(fireUpdate_sameUnfired s.config s.time s.dev).phase.trans hs.1, Nat.le_refl _⟩
    ((fireUpdate_nextPeriodicDeadline s.config s.time s.dev).trans harmed) hdue

/-- No fire lowers the line, so in either order the sink sees at most one assert (R316). -/
theorem afterPeriodic_afterUpdate_sink (s : State) (dl : Nat) :
    (s.afterPeriodic dl).afterUpdate.sink =
      if (s.afterPeriodic dl).afterUpdate.dev.line && !s.dev.line then .assert :: s.sink else s.sink :=
  recordEdge_two_rises s.sink _ _ _ (firePeriodic_line_kept s.config s.time dl s.dev)
    (fireUpdate_line_kept s.config s.time (s.afterPeriodic dl).dev)

theorem afterUpdate_afterPeriodic_sink (s : State) (dl : Nat) :
    (s.afterUpdate.afterPeriodic dl).sink =
      if (s.afterUpdate.afterPeriodic dl).dev.line && !s.dev.line then .assert :: s.sink else s.sink :=
  recordEdge_two_rises s.sink _ _ _ (fireUpdate_line_kept s.config s.time s.dev)
    (firePeriodic_line_kept s.config s.time dl s.afterUpdate.dev)

/-- Settles O43: neither fire moves what enables the other, the fires commute on the device record, and the sink's
record is a function of the line before and after both. -/
theorem updateAndPeriodicFiresCommute : Obligations.UpdateAndPeriodicFiresCommute := by
  intro s dl hinv hs harmed hperiodic hupdate
  obtain ⟨hwf, _⟩ := hinv
  have hdev : (s.afterPeriodic dl).afterUpdate.dev = (s.afterUpdate.afterPeriodic dl).dev :=
    fires_commute s.config s.time dl s.dev hwf
  have hsink := afterPeriodic_afterUpdate_sink s dl
  refine ⟨_, _, _, _, evPeriodic_eq_next s dl hs harmed hperiodic, evUpdate_after_evPeriodic s dl hs hupdate,
    evUpdate_eq_next s hs hupdate, evPeriodic_after_evUpdate s dl hs harmed hperiodic, hdev, ?_, hsink⟩
  rw [hsink, afterUpdate_afterPeriodic_sink, hdev]

end Sys2Proof.Machine
